-- ==== Sys2Proof/Word.lean ====
section
/-! DEFINITION. The plain data every file uses: bytes, byte strings (index 0 first, `00_scope.md` rule R9)
and the 32-bit words of the command port (`30_encoding.md` rule R85). -/

namespace Sys2Proof

/-- A byte, an integer `0..255` (rule R9). -/
abbrev Byte := BitVec 8

/-- A byte string; index 0 is the first, "leading" byte (rule R9). -/
abbrev Bytes := List Byte

/-- A word of the command port or a word operand: an abstract unsigned 32-bit integer (rule R65). -/
abbrev Word := BitVec 32

/-- `zeros(n)` of rule R9: `n` bytes of value 0. -/
def zeros (n : Nat) : Bytes := List.replicate n 0

end Sys2Proof
end

