-- ==== Sys2Proof/Config.lean ====
section
/-! DEFINITION. What one implementation of the block fixes: the parameters of `00_scope.md` rule R7, the
uninterpreted block-cipher capability (rules R8, R66) and the one value the spec leaves unstated.
The opaque constants have no body: nothing in Lean can evaluate them. -/

namespace Sys2Proof

/-- The two readings of `PGP_FULL` that `45_pgp_sync.md` rule R180 allows: the constant 8 (the spec's
decision D16, the default) or `BS`. -/
inductive PgpFullReading where
  | eight
  | blockSize
  deriving DecidableEq, Repr

/-- The NAME of the block-cipher capability attached to the block, so that a machine with a given
capability is plain data (log entry 3). `attached` is the uninterpreted capability of rule R8, the one
`State.reset` holds. `toy` is the rotate-and-add cipher of `95_test_vectors.md` section 2 (`T8`, `T16`),
"a test aid and no part of the hardware", with which the spec's vectors are replayed; `rejecting` is a
capability whose `Init` fails `InvalidKeyLength` on every key, with which the refusal of rule R117 is shown. -/
inductive CipherName where
  | attached
  | toy
  | rejecting
  deriving DecidableEq, Repr

/-- The parameters of the block (rule R7). No command writes one. -/
structure Params where
  /-- `BS`, bytes per cipher block; also the context field `ctx.block_size` (`10_state.md` rule R22). -/
  blockSize : Nat
  /-- `KS`, key bytes, 0 meaning any nonzero length; also `ctx.key_size` (rule R22). -/
  keySize : Nat
  /-- `BUF_CAP`, the largest working buffer; `none` is unbounded (rule R135). -/
  bufCap : Option Nat
  /-- Which reading of `PGP_FULL` the block takes (rule R180). -/
  pgpFull : PgpFullReading
  /-- `E`, `D`, `Init`: the capability attached to the block-cipher port (rule R66). -/
  cipher : CipherName
  deriving DecidableEq, Repr

/-- `BS` of the implementation, "positive integer ... OPEN" (rule R7): a free value, log entry 1. -/
opaque Config.blockSize : PNat

/-- `KS` of the implementation, "non-negative integer ... OPEN" (rule R7): a free value, log entry 1. -/
opaque Config.keySize : Nat

/-- `E(st, ·)` of the attached capability on blocks of `n` bytes, with `D(st, ·)` its inverse (rules R8,
R66): a bijection of `Bytes[n]` for every cipher state and nothing more. `none` is `ST_ZERO`; `some h` is
the state `Init` returned under the handle `h`. A free value, log entry 2. -/
opaque Config.cipher : (n : Nat) → Option Nat → Equiv.Perm (List.Vector Byte n)

/-- `Init(key)` of the attached capability (rule R66): the handle of the cipher state it returns, or
`none` where it "fails InvalidKeyLength". A free value, log entry 2. -/
opaque Config.initKey : Bytes → Option Nat

/-- What `GET_BLOCK_SIZE` and `GET_KEY_SIZE` answer for a size that has no 32-bit form (rules R209, R210
state no result there): a free value of the size, log entry 5. -/
opaque Config.oversizeWord : Nat → Word

/-- The parameters of the machine that `State.reset` describes: `BS`, `KS` and the cipher open,
`BUF_CAP = none` and `PGP_FULL = 8` the defaults of rule R7. -/
def Config.params : Params :=
  { blockSize := Config.blockSize
    keySize := Config.keySize
    bufCap := none
    pgpFull := .eight
    cipher := .attached }

end Sys2Proof
end

