-- ==== Sys2Proof/Syntax.lean ====
section
/-! DEFINITION. The command language: what stands on the command port (`30_encoding.md` rules R85 to R88)
and the closed type of commands (rule R100), one constructor per row of `opcode_table.json`. -/

namespace Sys2Proof

/-- The six modes of operation (rule R92). Their numbers are `modeNumber` of `Decode.lean`. -/
inductive Mode where
  | ecb
  | cbc
  | cfb
  | pgp
  | ofb
  | ctr
  deriving DecidableEq, Repr

/-- The counter-source selector (rule R93), also the state field `ctx.csrc` (rule R28). -/
inductive CounterSource where
  | none
  | engine
  | external
  deriving DecidableEq, Repr

/-- One operand on the data-in stream (rule R87): a byte string, framed by its length, or one word. -/
inductive Operand where
  | bytes (data : Bytes)
  | word (value : Word)
  deriving DecidableEq, Repr

/-- The two kinds of operand (rule R87). -/
inductive OperandKind where
  | bytes
  | word
  deriving DecidableEq, Repr

/-- One transaction of the command port (rule R85): a header word, then operands. -/
structure Transaction where
  header : Word
  operands : List Operand
  deriving DecidableEq, Repr

/-- The sixteen commands (rule R89), each with exactly the header fields and operands of rules R86
and R88. `mode` is any value `0..255`: its legality is checked by the command, not by the decoder. -/
inductive Instr where
  /-- `CTX_NEW` (rule R110): header fields `MODE`, `CSRC`, operands `KEY`, `IV`, `SEG`. -/
  | ctxNew (mode : Byte) (csrc : CounterSource) (key : Bytes) (iv : Bytes) (seg : Word)
  /-- `ENCRYPT` (rule R130): operand `BUF`. -/
  | encrypt (buf : Bytes)
  /-- `DECRYPT` (rule R131): operand `BUF`. -/
  | decrypt (buf : Bytes)
  /-- `SYNC` (rule R181). -/
  | sync
  /-- `SET_PRF` (rule R205): header bit `V`. -/
  | setPrf (v : Bool)
  /-- `GET_IV` (rule R207). -/
  | getIv
  /-- `GET_MODE` (rule R208). -/
  | getMode
  /-- `GET_BLOCK_SIZE` (rule R209). -/
  | getBlockSize
  /-- `GET_KEY_SIZE` (rule R210). -/
  | getKeySize
  /-- `CTX_DESTROY` (rule R121). -/
  | ctxDestroy
  /-- `GEN_NEW_BE` (rule R215): header bits `AW`, `DS`, operands `PREFIX`, `SUFFIX`, `INITIAL`. -/
  | genNewBe (aw : Bool) (ds : Bool) (pfx : Bytes) (sfx : Bytes) (initial : Bytes)
  /-- `GEN_NEW_LE` (rule R216): as `GEN_NEW_BE`. -/
  | genNewLe (aw : Bool) (ds : Bool) (pfx : Bytes) (sfx : Bytes) (initial : Bytes)
  /-- `GEN_INVOKE` (rule R220). -/
  | genInvoke
  /-- `GEN_NEXT_VALUE` (rule R224). -/
  | genNextValue
  /-- `GEN_GET_CARRY` (rule R225). -/
  | genGetCarry
  /-- `GEN_DESTROY` (rule R226). -/
  | genDestroy
  deriving DecidableEq, Repr

end Sys2Proof
end

