-- ==== Sys2Proof/Machine/State.lean ====
section
/-! DEFINITION. The state of the block (`10_state.md`): the context slot, the generator slot, the sequencing
state, and what stands on the ports; the reasons a step can stop; and the machine right after reset
(`70_reset_and_hazards.md` rule R260). -/

namespace Sys2Proof.Machine

/-- The stages of `41_dispatch_stage_control.md` rule R138. A step runs one command, so between steps the
stage is `idle` or `refillWait`; the others are passed inside a step. -/
inductive Stage where
  | idle
  | check
  | alloc
  | run
  | refillWait
  | done
  | fail
  deriving DecidableEq, Repr

/-- Increment direction of the generator (`10_state.md` rule R44). -/
inductive Endianness where
  | big
  | little
  deriving DecidableEq, Repr

/-- The cipher state `ctx.st`, opaque to the block (rule R23). `zero` is `ST_ZERO`, "a value ... that
carries no key information"; the other two are what `Init` returns: a handle of the uninterpreted capability,
or the key itself for the toy cipher of `95_test_vectors.md` section 2 (`Init(k) = k`). -/
inductive CipherState where
  | zero
  | attached (handle : Nat)
  | toy (key : Bytes)
  deriving DecidableEq, Repr

/-- The context slot (rules R20 to R32). -/
structure Context where
  /-- `ctx.valid` (rule R20). -/
  valid : Bool
  /-- `ctx.mode`, 8 bits (rule R21); `none` is the number 0, "no mode". -/
  mode : Option Mode
  /-- `ctx.st` (rule R23). -/
  st : CipherState
  /-- `ctx.iv`, `BS` bytes (rule R24). -/
  iv : Bytes
  /-- `ctx.old_cipher`, `BS` bytes (rule R25). -/
  oldCipher : Bytes
  /-- `ctx.segment_size`, bits, unsigned (rule R26). -/
  segmentSize : Nat
  /-- `ctx.count`, `0..BS` (rule R27). -/
  count : Nat
  /-- `ctx.csrc` (rule R28). -/
  csrc : CounterSource
  /-- `ctx.prf_mode` (rule R29). -/
  prfMode : Bool
  /-- `tmp`, the scratch block, `BS` bytes (rule R32). -/
  tmp : Bytes
  deriving DecidableEq, Repr

/-- The generator slot (rules R40 to R48). `buf` is the one contiguous buffer `prefix ‖ value ‖ suffix`;
the three strings are views of it (rule R43, `Flags.lean`). -/
structure Generator where
  /-- `gen.valid` (rule R40). -/
  valid : Bool
  /-- `gen.buf` (rule R43). -/
  buf : Bytes
  /-- `p`, the length of `prefix`, 16 bits (rules R41, R50). -/
  p : Nat
  /-- `n`, the length of `value`, 16 bits (rules R42, R50). -/
  n : Nat
  /-- `q`, the length of `suffix`, 16 bits (rules R41, R50). -/
  q : Nat
  /-- `gen.endianness` (rule R44). -/
  endianness : Endianness
  /-- `gen.carry` (rule R45). -/
  carry : Bool
  /-- `gen.allow_wraparound` (rule R46). -/
  allowWraparound : Bool
  /-- `gen.shortcut_enabled` (rule R47). -/
  shortcutEnabled : Bool
  deriving DecidableEq, Repr

/-- One answer of the external counter source (`20_memory.md` rule R67): `status` as its class and cause
(class 0 is `OK`, log entry 6), `is_bytes` and `data`. -/
structure CounterReply where
  cls : Byte
  cause : Byte
  isBytes : Bool
  data : Bytes
  deriving DecidableEq, Repr

/-- One response on the data-out stream (`30_encoding.md` rule R97): the status word, then `RESULT`. -/
structure Response where
  status : Word
  result : Bytes
  deriving DecidableEq, Repr

/-- The model's own observer (log entry 7): how many requests the block has put on each consumed port,
which `70_reset_and_hazards.md` rule R285 says can be counted exactly. No meaning reads it. -/
structure PortTraffic where
  /-- `Init` requests on the block-cipher port. -/
  init : Nat
  /-- `ENC` requests on the block-cipher port. -/
  enc : Nat
  /-- `DEC` requests on the block-cipher port. -/
  dec : Nat
  /-- Requests on the counter-source port. -/
  counter : Nat
  deriving DecidableEq, Repr

/-- The causes of `60_exceptions.md` rule R236; their class and cause numbers are in `Errors.lean`. -/
inductive Cause where
  | illegalCommand
  | noContext
  | noGenerator
  | slotBusy
  | badKeyLength
  | badIvLength
  | unknownMode
  | pgpBlockTooSmall
  | badSegmentSize
  | counterRequired
  | counterForbidden
  | counterShape
  | badCounterParam
  | decryptDisabled
  | syncOffMode
  | lenNotBlockMultiple
  | lenNotSegmentMultiple
  | counterWrapped
  | allocFailed
  deriving DecidableEq, Repr

/-- The machine. -/
structure State where
  /-- The parameters (`00_scope.md` rule R7), with the views `ctx.block_size` and `ctx.key_size`
  (rule R22); no command writes them. -/
  params : Params
  /-- The context slot. -/
  ctx : Context
  /-- The generator slot. -/
  gen : Generator
  /-- `stage` (rules R33, R138). -/
  stage : Stage
  /-- `pos`, the byte offset of the unit being processed (rule R33). -/
  pos : Nat
  /-- `IN` of the command in flight (`20_memory.md` rule R61); empty between commands. -/
  inBuf : Bytes
  /-- The bytes of `OUT` written so far (rule R62, log entry 8); empty between commands. -/
  outBuf : Bytes
  /-- The command port: what the host has offered and the block has not yet accepted, in the order of
  issue (rules R60, R74, R270). The block reads only its head. -/
  cmdPort : List Transaction
  /-- The counter-source port: the answers the environment supplies, in the order of the requests
  (rules R67, R280; log entry 6). -/
  replies : List CounterReply
  /-- The data-out stream: the responses sent and not yet taken by the host, in order (rule R97). -/
  dataOut : List Response
  /-- Requests counted per consumed port (rule R285), the model's own observer. -/
  ports : PortTraffic
  deriving DecidableEq, Repr

/-- Why a step stops with a fault. -/
inductive Fault where
  /-- Raised by `step` alone, in a state whose stage is one that is passed only inside a step (`check`,
  `alloc`, `run`, `done`, `fail`). No run from reset reaches such a state. Safe: the machine stops where the
  spec has no state between commands (rule R33). -/
  | transientStage (stage : Stage)
  deriving DecidableEq, Repr

/-- Why a step is refused. -/
inductive Refusal where
  /-- Raised by `exec` for an instruction that has no meaning yet. Safe. No arm answers it. -/
  | notModelled (mnemonic : String)
  /-- Raised by `ENCRYPT` and `DECRYPT` on a context that is valid and has no mode, the arm of rule R136
  that "refuses": "No other value of `ctx.mode` can be met". Safe, and no run from reset reaches it. -/
  | noMode
  deriving DecidableEq, Repr

/-- What a meaning and a step answer. -/
abbrev Out := Host.Outcome State Fault Refusal

/-! ## Values after power-on reset (rules R35, R50, R260) -/

/-- The context slot after power-on reset and after `CTX_DESTROY`, for a block of `bs` bytes (rule R35). -/
def Context.cleared (bs : Nat) : Context :=
  { valid := false
    mode := none
    st := .zero
    iv := zeros bs
    oldCipher := zeros bs
    segmentSize := 0
    count := 0
    csrc := .none
    prfMode := false
    tmp := zeros bs }

/-- The generator slot after power-on reset and after `GEN_DESTROY` (rule R50). -/
def Generator.cleared : Generator :=
  { valid := false
    buf := []
    p := 0
    n := 0
    q := 0
    endianness := .big
    carry := false
    allowWraparound := false
    shortcutEnabled := false }

/-- The machine right after reset (rule R260), with nothing offered on any port. -/
def State.reset : State :=
  { params := Config.params
    ctx := Context.cleared Config.params.blockSize
    gen := Generator.cleared
    stage := .idle
    pos := 0
    inBuf := []
    outBuf := []
    cmdPort := []
    replies := []
    dataOut := []
    ports := { init := 0, enc := 0, dec := 0, counter := 0 } }

/-! ## Views and updates -/

/-- `BS`, and the context field `ctx.block_size` (rule R22). -/
def State.bs (s : State) : Nat := s.params.blockSize

/-- `KS`, and the context field `ctx.key_size` (rule R22). -/
def State.ks (s : State) : Nat := s.params.keySize

/-- "While `stage = REFILL_WAIT` one request is outstanding on the counter-source port" and no other
in-flight operation exists (rule R34). -/
def State.requestOutstanding (s : State) : Bool := s.stage == .refillWait

/-- Write the context slot. -/
def State.withCtx (s : State) (c : Context) : State := { s with ctx := c }

/-- Write the generator slot. -/
def State.withGen (s : State) (g : Generator) : State := { s with gen := g }

/-- `stage <- st` (rule R11). -/
def State.withStage (s : State) (st : Stage) : State := { s with stage := st }

/-- The answers still to come on the counter-source port. -/
def State.withReplies (s : State) (r : List CounterReply) : State := { s with replies := r }

/-- Count one `Init` request on the block-cipher port. -/
def State.noteInit (s : State) : State := { s with ports := { s.ports with init := s.ports.init + 1 } }

/-- Count one `ENC` request on the block-cipher port. -/
def State.noteEnc (s : State) : State := { s with ports := { s.ports with enc := s.ports.enc + 1 } }

/-- Count one `DEC` request on the block-cipher port. -/
def State.noteDec (s : State) : State := { s with ports := { s.ports with dec := s.ports.dec + 1 } }

/-- Count one request on the counter-source port. -/
def State.noteCounter (s : State) : State := { s with ports := { s.ports with counter := s.ports.counter + 1 } }

/-- `ctx.iv <- v`. -/
def Context.withIv (c : Context) (v : Bytes) : Context := { c with iv := v }

/-- `ctx.old_cipher <- v`. -/
def Context.withOldCipher (c : Context) (v : Bytes) : Context := { c with oldCipher := v }

/-- `tmp <- v`. -/
def Context.withTmp (c : Context) (v : Bytes) : Context := { c with tmp := v }

/-- `ctx.count <- n`. -/
def Context.withCount (c : Context) (n : Nat) : Context := { c with count := n }

/-- `ctx.prf_mode <- v`. -/
def Context.withPrfMode (c : Context) (v : Bool) : Context := { c with prfMode := v }

end Sys2Proof.Machine
end

