-- ==== Sys2Proof/Machine/Cipher.lean ====
section
/-! DEFINITION. The block-cipher port (`20_memory.md` rule R66): `EncryptBlock`, `DecryptBlock` and `Init` of
the attached capability, uninterpreted but for the laws of `00_scope.md` rule R8, and the toy cipher of
`95_test_vectors.md` section 2 with which the spec's vectors are replayed. -/

namespace Sys2Proof.Machine

/-- The toy key as long as the block, zeros where the key is shorter. -/
def toyKey (key : Bytes) (n : Nat) : Bytes := (key ++ zeros n).take n

/-- `E` of the toy cipher (`95_test_vectors.md` section 2): rotate left by one byte, add the key bytewise. -/
def toyEnc (key x : Bytes) : Bytes :=
  List.zipWith (fun a b => a + b) (x.drop 1 ++ x.take 1) (toyKey key x.length)

/-- `D` of the toy cipher: subtract the key bytewise, rotate right by one byte. -/
def toyDec (key y : Bytes) : Bytes :=
  let z := List.zipWith (fun a b => a - b) y (toyKey key y.length)
  z.drop (y.length - 1) ++ z.take (y.length - 1)

/-- `E(st, x)` (rules R12, R66). -/
def cipherEnc (st : CipherState) (x : Bytes) : Bytes :=
  match st with
  | .zero => (Config.cipher x.length none ⟨x, rfl⟩).val
  | .attached h => (Config.cipher x.length (some h) ⟨x, rfl⟩).val
  | .toy key => toyEnc key x

/-- `D(st, y)` (rules R12, R66): the inverse of `E(st, ·)` (rule R8). -/
def cipherDec (st : CipherState) (y : Bytes) : Bytes :=
  match st with
  | .zero => ((Config.cipher y.length none).symm ⟨y, rfl⟩).val
  | .attached h => ((Config.cipher y.length (some h)).symm ⟨y, rfl⟩).val
  | .toy key => toyDec key y

/-- `Init(key)` (rule R66): the cipher state, or `none` for `InvalidKeyLength`. -/
def cipherInit (c : CipherName) (key : Bytes) : Option CipherState :=
  match c with
  | .attached => (Config.initKey key).map .attached
  | .toy => some (.toy key)
  | .rejecting => none

end Sys2Proof.Machine
end

