-- ==== Sys2Proof/Machine/Errors.lean ====
section
/-! DEFINITION. The numbers of the error classes and causes (`60_exceptions.md` rules R235, R236) and the
status word they make (`30_encoding.md` rule R97). -/

namespace Sys2Proof.Machine

/-- `CLASS` of a cause (rules R235, R236): 1 `ConfigurationError`, 2 `AlignmentError`, 3 `OverflowError`,
4 `ResourceError`. -/
def causeClass : Cause → Byte
  | .illegalCommand => 1
  | .noContext => 1
  | .noGenerator => 1
  | .slotBusy => 1
  | .badKeyLength => 1
  | .badIvLength => 1
  | .unknownMode => 1
  | .pgpBlockTooSmall => 1
  | .badSegmentSize => 1
  | .counterRequired => 1
  | .counterForbidden => 1
  | .counterShape => 1
  | .badCounterParam => 1
  | .decryptDisabled => 1
  | .syncOffMode => 1
  | .lenNotBlockMultiple => 2
  | .lenNotSegmentMultiple => 2
  | .counterWrapped => 3
  | .allocFailed => 4

/-- `CAUSE` of a cause (rule R236). -/
def causeCode : Cause → Byte
  | .illegalCommand => 0x01
  | .noContext => 0x02
  | .noGenerator => 0x03
  | .slotBusy => 0x04
  | .badKeyLength => 0x10
  | .badIvLength => 0x11
  | .unknownMode => 0x12
  | .pgpBlockTooSmall => 0x13
  | .badSegmentSize => 0x14
  | .counterRequired => 0x15
  | .counterForbidden => 0x16
  | .counterShape => 0x17
  | .badCounterParam => 0x18
  | .decryptDisabled => 0x20
  | .syncOffMode => 0x21
  | .lenNotBlockMultiple => 0x01
  | .lenNotSegmentMultiple => 0x02
  | .counterWrapped => 0x01
  | .allocFailed => 0x01

/-- The status word: `CLASS` in bits 7:0, `CAUSE` in bits 15:8, bits 31:16 zero (rule R97). -/
def statusWord (cls cause : Byte) : Word := 0#16 ++ cause ++ cls

/-- The status word of `OK`. -/
def okStatus : Word := statusWord 0 0

end Sys2Proof.Machine
end

