-- ==== Sys2Proof/Machine/Flags.lean ====
section
/-! DEFINITION. The one flag computation of the block, `gen.carry` (`10_state.md` rule R45), with the
increment that makes it (`48_counter_generator.md` rule R221), and the views of the generator buffer
(rule R43). -/

namespace Sys2Proof.Machine

/-- The byte loop of `increment` (rule R221) over the value bytes, least significant first, with the carry
`c` going in: the new bytes and the carry that comes out of the last. -/
def rippleCarry : Nat → Bytes → Bytes × Nat
  | c, [] => ([], c)
  | c, b :: rest =>
    let t := b.toNat + c
    let r := rippleCarry (t / 256) rest
    (BitVec.ofNat 8 (t % 256) :: r.1, r.2)

/-- Add one to a value in its byte order (rule R221): the new bytes and whether a carry left the most
significant byte. Big-endian starts at the last byte, little-endian at the first. -/
def incrementValue (e : Endianness) (v : Bytes) : Bytes × Bool :=
  match e with
  | .little => ((rippleCarry 1 v).1, (rippleCarry 1 v).2 == 1)
  | .big => ((rippleCarry 1 v.reverse).1.reverse, (rippleCarry 1 v.reverse).2 == 1)

/-- `gen.value`, the slice `gen.buf[p..p+n)` (rule R43). -/
def genValue (g : Generator) : Bytes := (g.buf.drop g.p).take g.n

/-- `gen.prefix`, the slice before `value` (rule R43). -/
def genPrefix (g : Generator) : Bytes := g.buf.take g.p

/-- `gen.suffix`, the slice after `value` (rule R43). -/
def genSuffix (g : Generator) : Bytes := g.buf.drop (g.p + g.n)

/-- `W = p + n + q`, the output width (rule R43). -/
def genWidth (g : Generator) : Nat := g.p + g.n + g.q

/-- `Exhausted-and-blocked ⇔ gen.carry = 1 ∧ gen.allow_wraparound = 0` (rule R48). -/
def genBlocked (g : Generator) : Bool := g.carry && !g.allowWraparound

/-- `increment(gen)` (rule R221): the value in place, `prefix` and `suffix` untouched, and
`gen.carry` the carry out, 0 as well as 1. -/
def genIncrement (g : Generator) : Generator :=
  { g with
    buf := genPrefix g ++ (incrementValue g.endianness (genValue g)).1 ++ genSuffix g
    carry := (incrementValue g.endianness (genValue g)).2 }

/-- `be(b)` of `00_scope.md` rule R15. -/
def beNat (b : Bytes) : Nat := b.foldl (fun acc x => acc * 256 + x.toNat) 0

/-- `le(b)` of rule R15. -/
def leNat (b : Bytes) : Nat := b.foldr (fun x acc => x.toNat + 256 * acc) 0

/-- `int(value)` in the generator's byte order (`48_counter_generator.md` rule R224). -/
def valueNat (e : Endianness) (v : Bytes) : Nat :=
  match e with
  | .big => beNat v
  | .little => leNat v

/-- The value bytes most significant first: as stored for a big-endian generator, reversed for a
little-endian one (rule R224). -/
def valueBytesMsbFirst (e : Endianness) (v : Bytes) : Bytes :=
  match e with
  | .big => v
  | .little => v.reverse

end Sys2Proof.Machine
end

