-- ==== Sys2Proof/Decode.lean ====
section
/-! DEFINITION. Command encoding: the operation codes with their match and mask (`30_encoding.md` rule R89),
the decoder in the order of rule R91, total and rejecting by name, and after it the encoder written from the
same tables. A transaction also has a serial form in bytes (rules R65, R87), decoded and encoded here too. -/

namespace Sys2Proof

/-! ## Byte order of words (rule R65: most significant byte first) -/

/-- The four bytes of a word, most significant first (rule R65; `be32` of rule R209). -/
def be32 (w : Word) : Bytes :=
  [w.extractLsb' 24 8, w.extractLsb' 16 8, w.extractLsb' 8 8, w.extractLsb' 0 8]

/-- Read one word, most significant byte first; `none` when fewer than four bytes are left. -/
def readWord : Bytes → Option (Word × Bytes)
  | a :: b :: c :: d :: rest => some (a ++ b ++ c ++ d, rest)
  | _ => none

/-! ## Numbers of modes and counter sources -/

/-- The mode identifiers of rule R92; 4 is the historical gap. -/
def modeNumber : Mode → Byte
  | .ecb => 1
  | .cbc => 2
  | .cfb => 3
  | .pgp => 5
  | .ofb => 6
  | .ctr => 7

/-- The mode an identifier names; `none` for 0, 4 and 8..255 (rule R92). -/
def modeOfNumber (b : Byte) : Option Mode :=
  if b = 1 then some .ecb
  else if b = 2 then some .cbc
  else if b = 3 then some .cfb
  else if b = 5 then some .pgp
  else if b = 6 then some .ofb
  else if b = 7 then some .ctr
  else none

/-- The `CSRC` numbers of rule R93. -/
def csrcNumber : CounterSource → BitVec 2
  | .none => 0
  | .engine => 1
  | .external => 2

/-- The counter source a `CSRC` field names; 3 is reserved (rule R93). -/
def csrcOfNumber (b : BitVec 2) : Option CounterSource :=
  if b = 0 then some .none
  else if b = 1 then some .engine
  else if b = 2 then some .external
  else none

/-! ## The opcode table (rule R89) -/

/-- The sixteen rows of rule R89. -/
inductive Opcode where
  | ctxNew
  | encrypt
  | decrypt
  | sync
  | setPrf
  | getIv
  | getMode
  | getBlockSize
  | getKeySize
  | ctxDestroy
  | genNewBe
  | genNewLe
  | genInvoke
  | genNextValue
  | genGetCarry
  | genDestroy
  deriving DecidableEq, Repr

/-- Every row once, in the table's order. -/
def allOpcodes : List Opcode :=
  [.ctxNew, .encrypt, .decrypt, .sync, .setPrf, .getIv, .getMode, .getBlockSize, .getKeySize, .ctxDestroy,
   .genNewBe, .genNewLe, .genInvoke, .genNextValue, .genGetCarry, .genDestroy]

/-- `OPC`, header bits 31:24 (rule R89). -/
def opcodeNumber : Opcode → Byte
  | .ctxNew => 0x10
  | .encrypt => 0x11
  | .decrypt => 0x12
  | .sync => 0x13
  | .setPrf => 0x14
  | .getIv => 0x15
  | .getMode => 0x16
  | .getBlockSize => 0x17
  | .getKeySize => 0x18
  | .ctxDestroy => 0x1F
  | .genNewBe => 0x20
  | .genNewLe => 0x21
  | .genInvoke => 0x22
  | .genNextValue => 0x23
  | .genGetCarry => 0x24
  | .genDestroy => 0x2F

/-- The row whose `OPC` is this number; `none` when `OPC` is not in rule R89. -/
def opcodeOfNumber (b : Byte) : Option Opcode :=
  allOpcodes.find? fun op => opcodeNumber op == b

/-- The row's `match` word (rule R89). -/
def opcodeMatch : Opcode → Word
  | .ctxNew => 0x10000000
  | .encrypt => 0x11000000
  | .decrypt => 0x12000000
  | .sync => 0x13000000
  | .setPrf => 0x14000000
  | .getIv => 0x15000000
  | .getMode => 0x16000000
  | .getBlockSize => 0x17000000
  | .getKeySize => 0x18000000
  | .ctxDestroy => 0x1F000000
  | .genNewBe => 0x20000000
  | .genNewLe => 0x21000000
  | .genInvoke => 0x22000000
  | .genNextValue => 0x23000000
  | .genGetCarry => 0x24000000
  | .genDestroy => 0x2F000000

/-- The row's `mask` word (rule R89): the bits that must be as in `opcodeMatch`. -/
def opcodeMask : Opcode → Word
  | .ctxNew => 0xFFFFFC00
  | .setPrf => 0xFFFFFFFE
  | .genNewBe => 0xFFFFFFFC
  | .genNewLe => 0xFFFFFFFC
  | .encrypt => 0xFFFFFFFF
  | .decrypt => 0xFFFFFFFF
  | .sync => 0xFFFFFFFF
  | .getIv => 0xFFFFFFFF
  | .getMode => 0xFFFFFFFF
  | .getBlockSize => 0xFFFFFFFF
  | .getKeySize => 0xFFFFFFFF
  | .ctxDestroy => 0xFFFFFFFF
  | .genInvoke => 0xFFFFFFFF
  | .genNextValue => 0xFFFFFFFF
  | .genGetCarry => 0xFFFFFFFF
  | .genDestroy => 0xFFFFFFFF

/-- "A header selects a command when `header AND mask = match`" (rule R89). -/
def opcodeSelects (op : Opcode) (h : Word) : Bool := h &&& opcodeMask op == opcodeMatch op

/-- The kinds of the row's operands, in order (rule R88). -/
def operandKinds : Opcode → List OperandKind
  | .ctxNew => [.bytes, .bytes, .word]
  | .encrypt => [.bytes]
  | .decrypt => [.bytes]
  | .genNewBe => [.bytes, .bytes, .bytes]
  | .genNewLe => [.bytes, .bytes, .bytes]
  | .sync => []
  | .setPrf => []
  | .getIv => []
  | .getMode => []
  | .getBlockSize => []
  | .getKeySize => []
  | .ctxDestroy => []
  | .genInvoke => []
  | .genNextValue => []
  | .genGetCarry => []
  | .genDestroy => []

/-- The kind of an operand. -/
def operandKindOf : Operand → OperandKind
  | .bytes _ => .bytes
  | .word _ => .word

/-! ## Header fields (rules R85, R86) -/

/-- `OPC`, bits 31:24. -/
def headerOpc (h : Word) : Byte := h.extractLsb' 24 8

/-- `CSRC`, bits 9:8. -/
def headerCsrc (h : Word) : BitVec 2 := h.extractLsb' 8 2

/-- `ARG`, bits 7:0; for `CTX_NEW` it is `MODE`. -/
def headerArg (h : Word) : Byte := h.extractLsb' 0 8

/-- Header bit 0: `V` of `SET_PRF`, `AW` of `GEN_NEW_BE` and `GEN_NEW_LE` (rule R86). -/
def headerBit0 (h : Word) : Bool := h.getLsbD 0

/-- Header bit 1: `DS` of `GEN_NEW_BE` and `GEN_NEW_LE` (rule R86). -/
def headerBit1 (h : Word) : Bool := h.getLsbD 1

/-- A header from its fields, the reserved bits 23:10 zero (rule R85). -/
def makeHeader (opc : Byte) (csrc : BitVec 2) (arg : Byte) : Word := opc ++ 0#14 ++ csrc ++ arg

/-! ## The decoder (rule R91) -/

/-- Why a transaction is an illegal command (rule R94), in the order of rule R91. All are answered alike. -/
inductive DecodeError where
  /-- Fewer than four bytes: no header word (serial form only). -/
  | noHeader
  /-- `OPC` is not in rule R89. -/
  | unknownOpcode
  /-- A must-be-zero bit of the header is 1. -/
  | mustBeZero
  /-- `CSRC = 3`. -/
  | reservedCsrc
  /-- Fewer or more operands than rule R88 lists, or an operand of the wrong kind. -/
  | operandList
  deriving DecidableEq, Repr

/-- Steps (1) to (3) of rule R91: the row the header selects, or why it is illegal. -/
def checkHeader (h : Word) : Except DecodeError Opcode :=
  match opcodeOfNumber (headerOpc h) with
  | none => .error .unknownOpcode
  | some op =>
    if opcodeSelects op h = false then .error .mustBeZero
    else if op = .ctxNew ∧ csrcOfNumber (headerCsrc h) = none then .error .reservedCsrc
    else .ok op

/-- A command without operands: the list must be empty (rule R88). -/
def noOperands (ops : List Operand) (i : Instr) : Except DecodeError Instr :=
  match ops with
  | [] => .ok i
  | _ => .error .operandList

/-- A command with the one operand `BUF` (rule R88). -/
def bufOperand (ops : List Operand) (f : Bytes → Instr) : Except DecodeError Instr :=
  match ops with
  | [.bytes b] => .ok (f b)
  | _ => .error .operandList

/-- A command with the operands `PREFIX`, `SUFFIX`, `INITIAL` (rule R88). -/
def genOperands (ops : List Operand) (f : Bytes → Bytes → Bytes → Instr) : Except DecodeError Instr :=
  match ops with
  | [.bytes p, .bytes q, .bytes v] => .ok (f p q v)
  | _ => .error .operandList

/-- `CTX_NEW`: header fields `CSRC`, `MODE` and the operands `KEY`, `IV`, `SEG` (rules R86, R88). -/
def ctxNewOperands (h : Word) (ops : List Operand) : Except DecodeError Instr :=
  match csrcOfNumber (headerCsrc h) with
  | none => .error .reservedCsrc
  | some c =>
    match ops with
    | [.bytes key, .bytes iv, .word seg] => .ok (.ctxNew (headerArg h) c key iv seg)
    | _ => .error .operandList

/-- Step (4) of rule R91: the command a legal header and its operands make. -/
def decodeOperands (op : Opcode) (h : Word) (ops : List Operand) : Except DecodeError Instr :=
  match op with
  | .ctxNew => ctxNewOperands h ops
  | .encrypt => bufOperand ops .encrypt
  | .decrypt => bufOperand ops .decrypt
  | .sync => noOperands ops .sync
  | .setPrf => noOperands ops (.setPrf (headerBit0 h))
  | .getIv => noOperands ops .getIv
  | .getMode => noOperands ops .getMode
  | .getBlockSize => noOperands ops .getBlockSize
  | .getKeySize => noOperands ops .getKeySize
  | .ctxDestroy => noOperands ops .ctxDestroy
  | .genNewBe => genOperands ops (.genNewBe (headerBit0 h) (headerBit1 h))
  | .genNewLe => genOperands ops (.genNewLe (headerBit0 h) (headerBit1 h))
  | .genInvoke => noOperands ops .genInvoke
  | .genNextValue => noOperands ops .genNextValue
  | .genGetCarry => noOperands ops .genGetCarry
  | .genDestroy => noOperands ops .genDestroy

/-- The decoder of the command port (rule R91). Every refusal is an illegal command (rule R94). -/
def decode (t : Transaction) : Except DecodeError Instr :=
  match checkHeader t.header with
  | .error e => .error e
  | .ok op => decodeOperands op t.header t.operands

/-! ## The serial form: "a decoder knows the extent of a command from its header and the `LEN` fields
alone" (rule R87) -/

/-- Read one operand: `LEN` and `LEN` bytes, or one word. -/
def readOperand (k : OperandKind) (b : Bytes) : Option (Operand × Bytes) :=
  match readWord b with
  | none => none
  | some (w, rest) =>
    match k with
    | .word => some (.word w, rest)
    | .bytes =>
      if rest.length < w.toNat then none
      else some (.bytes (rest.take w.toNat), rest.drop w.toNat)

/-- Read the operands of a row, in order. -/
def readOperands : List OperandKind → Bytes → Option (List Operand × Bytes)
  | [], b => some ([], b)
  | k :: ks, b =>
    match readOperand k b with
    | none => none
    | some (o, rest) =>
      match readOperands ks rest with
      | none => none
      | some (os, rest') => some (o :: os, rest')

/-- Decode the first command of a byte stream and answer it with the bytes after it. -/
def decodeStream (b : Bytes) : Except DecodeError (Instr × Bytes) :=
  match readWord b with
  | none => .error .noHeader
  | some (h, rest) =>
    match checkHeader h with
    | .error e => .error e
    | .ok op =>
      match readOperands (operandKinds op) rest with
      | none => .error .operandList
      | some (ops, rest') =>
        match decodeOperands op h ops with
        | .error e => .error e
        | .ok i => .ok (i, rest')

/-- Decode one whole serial transaction: bytes left over are more operands than rule R88 lists. -/
def decodeBytes (b : Bytes) : Except DecodeError Instr :=
  match decodeStream b with
  | .error e => .error e
  | .ok (i, []) => .ok i
  | .ok (_, _ :: _) => .error .operandList

/-! ## The encoder -/

/-- The row of a command. -/
def opcodeOf : Instr → Opcode
  | .ctxNew _ _ _ _ _ => .ctxNew
  | .encrypt _ => .encrypt
  | .decrypt _ => .decrypt
  | .sync => .sync
  | .setPrf _ => .setPrf
  | .getIv => .getIv
  | .getMode => .getMode
  | .getBlockSize => .getBlockSize
  | .getKeySize => .getKeySize
  | .ctxDestroy => .ctxDestroy
  | .genNewBe _ _ _ _ _ => .genNewBe
  | .genNewLe _ _ _ _ _ => .genNewLe
  | .genInvoke => .genInvoke
  | .genNextValue => .genNextValue
  | .genGetCarry => .genGetCarry
  | .genDestroy => .genDestroy

/-- `ARG` of `GEN_NEW_BE` and `GEN_NEW_LE`: `DS` in bit 1, `AW` in bit 0 (rule R86). -/
def genArg (aw ds : Bool) : Byte := 0#6 ++ BitVec.ofBool ds ++ BitVec.ofBool aw

/-- The `CSRC` field of a command: `CTX_NEW` only, 0 elsewhere (rule R85). -/
def encodeCsrc : Instr → BitVec 2
  | .ctxNew _ csrc _ _ _ => csrcNumber csrc
  | .encrypt _ => 0
  | .decrypt _ => 0
  | .setPrf _ => 0
  | .genNewBe _ _ _ _ _ => 0
  | .genNewLe _ _ _ _ _ => 0
  | .sync => 0
  | .getIv => 0
  | .getMode => 0
  | .getBlockSize => 0
  | .getKeySize => 0
  | .ctxDestroy => 0
  | .genInvoke => 0
  | .genNextValue => 0
  | .genGetCarry => 0
  | .genDestroy => 0

/-- The `ARG` field of a command (rule R86), 0 where the command has none. -/
def encodeArg : Instr → Byte
  | .ctxNew mode _ _ _ _ => mode
  | .setPrf v => 0#7 ++ BitVec.ofBool v
  | .genNewBe aw ds _ _ _ => genArg aw ds
  | .genNewLe aw ds _ _ _ => genArg aw ds
  | .encrypt _ => 0
  | .decrypt _ => 0
  | .sync => 0
  | .getIv => 0
  | .getMode => 0
  | .getBlockSize => 0
  | .getKeySize => 0
  | .ctxDestroy => 0
  | .genInvoke => 0
  | .genNextValue => 0
  | .genGetCarry => 0
  | .genDestroy => 0

/-- The operands of a command (rule R88). -/
def encodeOperands : Instr → List Operand
  | .ctxNew _ _ key iv seg => [.bytes key, .bytes iv, .word seg]
  | .encrypt buf => [.bytes buf]
  | .decrypt buf => [.bytes buf]
  | .genNewBe _ _ pfx sfx initial => [.bytes pfx, .bytes sfx, .bytes initial]
  | .genNewLe _ _ pfx sfx initial => [.bytes pfx, .bytes sfx, .bytes initial]
  | .sync => []
  | .setPrf _ => []
  | .getIv => []
  | .getMode => []
  | .getBlockSize => []
  | .getKeySize => []
  | .ctxDestroy => []
  | .genInvoke => []
  | .genNextValue => []
  | .genGetCarry => []
  | .genDestroy => []

/-- The header word of a command (rules R85, R86, R89). -/
def encodeHeader (i : Instr) : Word := makeHeader (opcodeNumber (opcodeOf i)) (encodeCsrc i) (encodeArg i)

/-- The transaction of a command (rule R85). -/
def encode (i : Instr) : Transaction := { header := encodeHeader i, operands := encodeOperands i }

/-- One operand in its serial form: `LEN` and the bytes, or the word (rules R65, R87). -/
def operandBytes : Operand → Bytes
  | .bytes b => be32 (BitVec.ofNat 32 b.length) ++ b
  | .word w => be32 w

/-- A transaction in its serial form. -/
def transactionBytes (t : Transaction) : Bytes := be32 t.header ++ t.operands.flatMap operandBytes

/-- A command in its serial form. -/
def encodeBytes (i : Instr) : Bytes := transactionBytes (encode i)

/-! ## One opcode-table word -/

/-- Four serial words, the most a command with empty operands takes: bit 0 of `w` is the least significant
bit of the FIRST word, and the words after `nbits` bits are zero. -/
def tableWordBytes (nbits w : Nat) : Bytes :=
  [0, 1, 2, 3].flatMap fun k => be32 (BitVec.ofNat 32 ((w % 2 ^ nbits) / 2 ^ (32 * k)))

/-- The instruction the decoder reads from an instruction whose bits are `w`. -/
def decodeTableWord (nbits w : Nat) : Option Instr :=
  match decodeStream (tableWordBytes nbits w) with
  | .ok (i, _) => some i
  | .error _ => none

/-- The same words as the transaction they make on the command port: the header, and the operands that a
row of its `OPC` reads from the words after it (none where there is no such row). -/
def tableTransaction (nbits w : Nat) : Transaction :=
  match readWord (tableWordBytes nbits w) with
  | none => { header := 0, operands := [] }
  | some (h, rest) =>
    match opcodeOfNumber (headerOpc h) with
    | none => { header := h, operands := [] }
    | some op =>
      match readOperands (operandKinds op) rest with
      | none => { header := h, operands := [] }
      | some (ops, _) => { header := h, operands := ops }

/-! ## Defaults of the text form (rule R99) -/

/-- `CTX_NEW` with the operands that may be left out: `iv` not given is the empty string, `segment_size`
not given is `SEG = 0`, `counter` not given is `NONE` (rule R99). -/
def assembleCtxNew (key : Bytes) (mode : Byte) (iv : Option Bytes) (seg : Option Word)
    (counter : Option CounterSource) : Instr :=
  .ctxNew mode (counter.getD .none) key (iv.getD []) (seg.getD 0)

/-- `GEN_NEW_BE` with `allow_wraparound` and `disable_shortcut` 0 when not given (rule R99). -/
def assembleGenNewBe (pfx sfx initial : Bytes) (aw ds : Option Bool) : Instr :=
  .genNewBe (aw.getD false) (ds.getD false) pfx sfx initial

/-- `GEN_NEW_LE` with `allow_wraparound` and `disable_shortcut` 0 when not given (rule R99). -/
def assembleGenNewLe (pfx sfx initial : Bytes) (aw ds : Option Bool) : Instr :=
  .genNewLe (aw.getD false) (ds.getD false) pfx sfx initial

end Sys2Proof
end

