-- ==== Sys2Proof/Machine/Operands.lean ====
section
/-! DEFINITION. The operand forms: the XOR datapath (`00_scope.md` rule R12), how `IN` is cut into units
(`20_memory.md` rule R70), the forms by which the feedback registers are addressed (rule R78), the segment
packer (`43_cfb_segment_packer.md` rule R160), the fixed limits of rule R7 and the forms of results. -/

namespace Sys2Proof.Machine

/-- `SEG_DEFAULT`: the CFB segment size when unspecified, in bits (rule R7). -/
def segDefault : Nat := 8

/-- `PGP_COUNT_INIT`: `count` after construction in PGP mode (rule R7). -/
def pgpCountInit : Nat := 8

/-- `PFX_MAX`, `SFX_MAX`, `VAL_MAX`: the largest length of `prefix`, `suffix` and `value` (rule R7). -/
def genPartMax : Nat := 65535

/-- `PGP_FULL` (rules R7, R180). -/
def pgpFullValue (s : State) : Nat :=
  match s.params.pgpFull with
  | .eight => 8
  | .blockSize => s.bs

/-- `xor(a, b)`: bitwise exclusive or of each byte pair (rule R12). -/
def xorBytes (a b : Bytes) : Bytes := List.zipWith (fun x y => x ^^^ y) a b

/-- The first `k` units of `u` bytes of a buffer. -/
def takeUnits (u : Nat) : Nat → Bytes → List Bytes
  | 0, _ => []
  | k + 1, b => b.take u :: takeUnits u k (b.drop u)

/-- `IN` cut into units of `u` bytes in increasing `pos` (rules R70, R139): `len / u` of them. -/
def units (u : Nat) (b : Bytes) : List Bytes := takeUnits u (b.length / u) b

/-- `r[i]`: one byte of a register array (rule R11). Past the end it answers 0, which no reachable state
reads: "`0 ≤ count < BS` when used" (rule R78; log entry 9). -/
def byteAt (r : Bytes) (i : Nat) : Byte := r.getD i 0

/-- `b[i..j)` (rule R9). -/
def slice (b : Bytes) (i j : Nat) : Bytes := (b.take j).drop i

/-- `s`, bytes per segment (rule R160): `segment_size div 8`. -/
def segmentBytes (segmentSize : Nat) : Nat := segmentSize / 8

/-- The two feedback paths of the segment packer (rule R160). -/
inductive SegmentPath where
  | full
  | shift
  deriving DecidableEq, Repr

/-- `path := (s == BS) ? FULL : SHIFT` (rule R160). -/
def segmentPath (s bs : Nat) : SegmentPath := if s = bs then .full else .shift

/-- "`1 ≤ segment_size ≤ block_size*8` and `segment_size % 8 == 0`" (rules R26, R115). -/
def segmentSizeOk (seg bs : Nat) : Bool := decide (1 ≤ seg) && decide (seg ≤ bs * 8) && seg % 8 == 0

/-- A size as the 32-bit unsigned value of rules R209 and R210; a size with no 32-bit form gives a free
word, which those rules do not state (log entry 5). -/
def sizeWord (n : Nat) : Word := if n < 2 ^ 32 then BitVec.ofNat 32 n else Config.oversizeWord n

/-- The number of a mode held in the state, 0 for "no mode" (rules R21, R35). -/
def modeIdOf (m : Option Mode) : Byte :=
  match m with
  | none => 0
  | some m => modeNumber m

end Sys2Proof.Machine
end

