-- ==== Sys2Proof/Machine/Ops.lean ====
section
/-! DEFINITION. The operations every meaning shares: sending a response, raising an error
(`60_exceptions.md` rule R242), the working buffer (`41_dispatch_stage_control.md` rule R135), the loop over
units of `RUN` (rule R139), and the response in its serial form. -/

namespace Sys2Proof.Machine

/-! ## Ending a command -/

/-- Send a response and return to `IDLE`: `pos` goes to 0, `IN` and `OUT` are released (rules R96, R138,
R242, R245). -/
def respond (r : Response) (s : State) : State :=
  { s with
    stage := .idle
    pos := 0
    inBuf := []
    outBuf := []
    dataOut := s.dataOut ++ [r] }

/-- `DONE`: the `OK` response with `RESULT` is sent (rules R97, R138). -/
def complete (result : Bytes) (s : State) : State :=
  respond { status := okStatus, result := result } (s.withStage .done)

/-- TAKING AN ERROR (rule R242): `FAIL`, the response carries class and cause with `RESULT` empty, `OUT` is
dropped, then `IDLE`. Nothing else is recorded, and there is no return operation: the block takes the next
command (rule R243). -/
def raiseStatus (cls cause : Byte) (s : State) : State :=
  respond { status := statusWord cls cause, result := [] } (s.withStage .fail)

/-- `raise Class(CAUSE)` (rules R14, R235) for a cause of rule R236. -/
def raise (c : Cause) (s : State) : State := raiseStatus (causeClass c) (causeCode c) s

/-! ## The data phase of ENCRYPT and DECRYPT -/

/-- `ALLOC`, then `RUN`: the working buffer is obtained and `pos <- 0` (rules R135, R138). `IN` is held for
the command in flight (rule R61). -/
def allocate (buf : Bytes) (s : State) : State :=
  { s.withStage .alloc with
    stage := .run
    pos := 0
    inBuf := buf
    outBuf := [] }

/-- `MemWrite(OUT+pos, n, v)` and `pos <- pos + n` (rules R13, R33, R138): bytes of `OUT` are written in
increasing `pos`, each once (rule R62). -/
def writeOut (v : Bytes) (s : State) : State :=
  { s with
    outBuf := s.outBuf ++ v
    pos := s.pos + v.length }

/-- The loop of `RUN` (rule R139): each unit, in order, reads the state the unit before it wrote, and what
it answers is written to `OUT`. -/
def runUnits {α : Type} (unit : State → α → State × Bytes) : List α → State → State
  | [], s => s
  | u :: us, s => runUnits unit us (writeOut (unit s u).2 (unit s u).1)

/-- End a data phase: `RESULT = OUT` (rule R137). -/
def finishRun (s : State) : State := complete s.outBuf s

/-- `E(x)` of the context (rule R12); the caller counts the request. -/
def encBlock (s : State) (x : Bytes) : Bytes := cipherEnc s.ctx.st x

/-- `D(y)` of the context (rule R12); the caller counts the request. -/
def decBlock (s : State) (y : Bytes) : Bytes := cipherDec s.ctx.st y

/-! ## The response in its serial form (rules R65, R97) -/

/-- The status word, then `RESULT` framed as rule R87 frames an operand. -/
def responseBytes (r : Response) : Bytes := be32 r.status ++ operandBytes (.bytes r.result)

/-! ## Platform reset (rules R260 to R262) -/

/-- A reset by the platform, in or between commands: the block as after power-on, no response to a command
in flight, and nothing outside the block touched (the parameters, what the host has offered and not been
taken, the external source's answers, the responses already sent, and the observer's counts). It is an
event of the environment, no part of `step`. -/
def platformReset (s : State) : State :=
  { s with
    ctx := Context.cleared s.bs
    gen := Generator.cleared
    stage := .idle
    pos := 0
    inBuf := []
    outBuf := [] }

end Sys2Proof.Machine
end

