-- ==== Sys2Proof/Machine/Construct.lean ====
section
/-! DEFINITION. Constructing and destroying a context (`40_construction.md`). -/

namespace Sys2Proof.Machine

/-- Check 1 (rule R112) fails: a key whose length is not a nonzero `KS`, or an empty key. An empty key
fails it whatever `KS` is. -/
def keyLengthBad (ks len : Nat) : Bool := len == 0 || (ks != 0 && len != ks)

/-- Checks 4 to 6 (rules R114 to R116) for a mode that passed check 3. -/
def modeCause (m : Mode) (csrc : CounterSource) (seg : Nat) (s : State) : Option Cause :=
  if m = .pgp ∧ s.bs < 8 then some .pgpBlockTooSmall
  else if m = .cfb ∧ segmentSizeOk seg s.bs = false then some .badSegmentSize
  else if m = .ctr ∧ csrc = .none then some .counterRequired
  else if m ≠ .ctr ∧ csrc ≠ .none then some .counterForbidden
  else if csrc = .engine ∧ s.gen.valid = false then some .counterShape
  else none

/-- The segment size a `SEG` operand asks for: 0 is "unspecified" and means 8 (rule R115). -/
def segOf (seg : Word) : Nat := if seg = 0 then segDefault else seg.toNat

/-- Checks 0 to 6 of `CTX_NEW` in their order (rules R110 to R116): the first that fails. -/
def ctxNewCause (mode : Byte) (csrc : CounterSource) (key iv : Bytes) (seg : Word) (s : State) :
    Option Cause :=
  if s.ctx.valid = true then some .slotBusy
  else if keyLengthBad s.ks key.length = true then some .badKeyLength
  else if iv.length ≠ 0 ∧ iv.length ≠ s.bs then some .badIvLength
  else
    match modeOfNumber mode with
    | none => some .unknownMode
    | some m => modeCause m csrc (segOf seg) s

/-- `ctx.count` after construction (rule R118). -/
def initialCount (m : Option Mode) (bs : Nat) : Nat :=
  match m with
  | some .pgp => pgpCountInit
  | some .ctr => bs
  | some .ecb => 0
  | some .cbc => 0
  | some .cfb => 0
  | some .ofb => 0
  | none => 0

/-- The writes of a successful `CTX_NEW` (rule R118); `tmp` keeps what it held (rule R35). -/
def newContext (mode : Byte) (csrc : CounterSource) (st : CipherState) (iv : Bytes) (seg : Word)
    (s : State) : Context :=
  { valid := true
    mode := modeOfNumber mode
    st := st
    iv := if iv.length = 0 then zeros s.bs else iv
    oldCipher := zeros s.bs
    segmentSize := segOf seg
    count := initialCount (modeOfNumber mode) s.bs
    csrc := csrc
    prfMode := false
    tmp := s.ctx.tmp }

/-- `CTX_NEW` (rule R110). `Init` is requested last (rule R117); a failure writes nothing (rule R119). -/
def execCtxNew (mode : Byte) (csrc : CounterSource) (key iv : Bytes) (seg : Word) (s : State) : Out :=
  match ctxNewCause mode csrc key iv seg s with
  | some c => .next (raise c s)
  | none =>
    match cipherInit s.params.cipher key with
    | none => .next (raise .badKeyLength s.noteInit)
    | some st => .next (complete [] (s.noteInit.withCtx (newContext mode csrc st iv seg s)))

/-- `CTX_DESTROY` (rule R121): every context field and `tmp` to the reset value; the generator is left. -/
def execCtxDestroy (s : State) : Out :=
  if s.ctx.valid = false then .next (raise .noContext s)
  else .next (complete [] (s.withCtx (Context.cleared s.bs)))

end Sys2Proof.Machine
end

