-- ==== Sys2Proof/Machine/Counter.lean ====
section
/-! DEFINITION. The commands of the counter generator (`48_counter_generator.md`). -/

namespace Sys2Proof.Machine

/-- The length checks of construction (rule R215) fail. -/
def genParamBad (pfx sfx initial : Bytes) : Bool :=
  decide (initial.length < 1) || decide (genPartMax < initial.length)
    || decide (genPartMax < pfx.length) || decide (genPartMax < sfx.length)

/-- The writes of a successful construction (rule R215); the value is stored as given. -/
def newGenerator (e : Endianness) (aw ds : Bool) (pfx sfx initial : Bytes) : Generator :=
  { valid := true
    buf := pfx ++ initial ++ sfx
    p := pfx.length
    n := initial.length
    q := sfx.length
    endianness := e
    carry := false
    allowWraparound := aw
    shortcutEnabled := !ds }

/-- What both constructors do (rules R215, R216). -/
def genConstruct (e : Endianness) (aw ds : Bool) (pfx sfx initial : Bytes) (s : State) : Out :=
  if s.gen.valid = true then .next (raise .slotBusy s)
  else if genParamBad pfx sfx initial = true then .next (raise .badCounterParam s)
  else .next (complete [] (s.withGen (newGenerator e aw ds pfx sfx initial)))

/-- `GEN_NEW_BE` (rule R215). -/
def execGenNewBe (aw ds : Bool) (pfx sfx initial : Bytes) (s : State) : Out :=
  genConstruct .big aw ds pfx sfx initial s

/-- `GEN_NEW_LE` (rule R216). -/
def execGenNewLe (aw ds : Bool) (pfx sfx initial : Bytes) (s : State) : Out :=
  genConstruct .little aw ds pfx sfx initial s

/-- `GEN_INVOKE` (rule R220): the snapshot from before the increment. -/
def execGenInvoke (s : State) : Out :=
  if s.gen.valid = false then .next (raise .noGenerator s)
  else if genBlocked s.gen = true then .next (raise .counterWrapped s)
  else .next (complete s.gen.buf (s.withGen (genIncrement s.gen)))

/-- The two inspections: `NO_GENERATOR` on an empty slot, else the result, and nothing is written. -/
def generatorRead (result : Bytes) (s : State) : Out :=
  if s.gen.valid = false then .next (raise .noGenerator s)
  else .next (complete result s)

/-- `GEN_NEXT_VALUE` (rule R224). -/
def execGenNextValue (s : State) : Out :=
  generatorRead (valueBytesMsbFirst s.gen.endianness (genValue s.gen)) s

/-- `GEN_GET_CARRY` (rule R225). -/
def execGenGetCarry (s : State) : Out := generatorRead [if s.gen.carry = true then 1 else 0] s

/-- `GEN_DESTROY` (rule R226): the whole buffer and every flag cleared; the context is left. -/
def execGenDestroy (s : State) : Out :=
  if s.gen.valid = false then .next (raise .noGenerator s)
  else .next (complete [] (s.withGen Generator.cleared))

end Sys2Proof.Machine
end

