-- ==== Sys2Proof/Machine/Cfb.lean ====
section
/-! DEFINITION. CFB (`43_cfb_segment_packer.md`): one unit is one segment of `s = segment_size div 8`
bytes; both directions request `ENC`. -/

namespace Sys2Proof.Machine

/-- `feed(cseg)` (rule R163): the full-block path replaces `iv`, the shift path moves it left by the
segment and appends the segment. -/
def cfbFeed (bs : Nat) (iv cseg : Bytes) : Bytes :=
  match segmentPath cseg.length bs with
  | .full => cseg
  | .shift => iv.drop cseg.length ++ cseg

/-- One segment of `ENCRYPT.CFB` (rule R161): the produced ciphertext is fed back. -/
def cfbEncSegment (s : State) (p : Bytes) : State × Bytes :=
  let k := encBlock s s.ctx.iv
  let cseg := xorBytes p (k.take (segmentBytes s.ctx.segmentSize))
  ((s.withCtx ((s.ctx.withTmp k).withIv (cfbFeed s.bs s.ctx.iv cseg))).noteEnc, cseg)

/-- One segment of `DECRYPT.CFB` (rule R162): the consumed ciphertext is fed back. -/
def cfbDecSegment (s : State) (cseg : Bytes) : State × Bytes :=
  let k := encBlock s s.ctx.iv
  ((s.withCtx ((s.ctx.withTmp k).withIv (cfbFeed s.bs s.ctx.iv cseg))).noteEnc,
   xorBytes cseg (k.take (segmentBytes s.ctx.segmentSize)))

/-- `ENCRYPT.CFB` (rule R161). -/
def cfbEncrypt (s : State) : State :=
  finishRun (runUnits cfbEncSegment (units (segmentBytes s.ctx.segmentSize) s.inBuf) s)

/-- `DECRYPT.CFB` (rule R162). -/
def cfbDecrypt (s : State) : State :=
  finishRun (runUnits cfbDecSegment (units (segmentBytes s.ctx.segmentSize) s.inBuf) s)

end Sys2Proof.Machine
end

