-- ==== Sys2Proof/Machine/Ctr.lean ====
section
/-! DEFINITION. CTR mode and the keystream refill (`46_ctr_refill.md`): one unit is one byte, and a byte
that finds `count = BS` needs a refill, which may fill `iv`, raise, or wait for the external source. -/

namespace Sys2Proof.Machine

/-- How a refill ends. -/
inductive Refill where
  /-- `iv` holds `E` of the next counter value. -/
  | filled (s : State)
  /-- The refill raised `CLASS(CAUSE)`. -/
  | raised (cls cause : Byte) (s : State)
  /-- One request is outstanding on the counter-source port: `stage = REFILL_WAIT`. -/
  | waiting (s : State)
  deriving DecidableEq, Repr

/-- A refill that raises a cause of `60_exceptions.md` rule R236. -/
def Refill.fails (c : Cause) (s : State) : Refill := .raised (causeClass c) (causeCode c) s

/-- `ctx.iv <- E(v)`, one `ENC` request. -/
def fillFrom (v : Bytes) (s : State) : State := (s.withCtx (s.ctx.withIv (encBlock s v))).noteEnc

/-- The shortcut refill (rule R193): carry, then width, then `E` of the whole buffer, then the increment. -/
def shortcutRefill (s : State) : Refill :=
  if genBlocked s.gen = true then .fails .counterWrapped s
  else if genWidth s.gen ≠ s.bs then .fails .counterShape s
  else .filled ((fillFrom s.gen.buf s).withGen (genIncrement s.gen))

/-- The generic refill on the engine (rule R194): `invoke(gen)` first, which advances the generator, then
the length of what it returned. -/
def genericRefill (s : State) : Refill :=
  if genBlocked s.gen = true then .fails .counterWrapped s
  else if s.gen.buf.length ≠ s.bs then .fails .counterShape (s.withGen (genIncrement s.gen))
  else .filled (fillFrom s.gen.buf (s.withGen (genIncrement s.gen)))

/-- What the refill makes of one answer of the external source (rule R195): its own failure is propagated
unchanged, then the kind, then the length. -/
def acceptReply (r : CounterReply) (s : State) : Refill :=
  if r.cls ≠ 0 then .raised r.cls r.cause s
  else if r.isBytes = false then .fails .counterShape s
  else if r.data.length ≠ s.bs then .fails .counterShape s
  else .filled (fillFrom r.data s)

/-- The generic refill on an external source (rule R195): one request; `REFILL_WAIT` while no answer
arrives. -/
def externalRefill (s : State) : Refill :=
  match s.replies with
  | [] => .waiting (s.noteCounter.withStage .refillWait)
  | r :: rest => acceptReply r (s.noteCounter.withReplies rest)

/-- `refill_ctr` (rule R192): the protocol is selected each time from the current state. -/
def refillCtr (s : State) : Refill :=
  if s.ctx.csrc = .external then externalRefill s
  else if s.gen.valid = false then .fails .counterShape s
  else if s.gen.shortcutEnabled = true then shortcutRefill s
  else genericRefill s

/-- After a good refill `ctx.count <- 0` (rule R190). -/
def Refill.startBlock : Refill → Refill
  | .filled s => .filled (s.withCtx (s.ctx.withCount 0))
  | .raised cls cause s => .raised cls cause s
  | .waiting s => .waiting s

/-- "if ctx.count == BS", made when a byte is about to be processed (rule R190). -/
def ctrReady (s : State) : Refill :=
  if s.ctx.count = s.bs then (refillCtr s).startBlock else .filled s

/-- One byte of `ENCRYPT.CTR` with keystream at hand (rule R190). -/
def ctrByte (b : Byte) (s : State) : State :=
  writeOut [b ^^^ byteAt s.ctx.iv s.ctx.count] (s.withCtx (s.ctx.withCount (s.ctx.count + 1)))

/-- The byte loop (rule R190) over the bytes of `IN` from `pos` on. A raise ends the command with the state
written so far (rule R196); a wait leaves the command in flight. -/
def ctrRun : Bytes → State → State
  | [], s => finishRun s
  | b :: rest, s =>
    match ctrReady s with
    | .filled s' => ctrRun rest (ctrByte b s')
    | .raised cls cause s' => raiseStatus cls cause s'
    | .waiting s' => s'

/-- `ENCRYPT.CTR` (rule R190). -/
def ctrEncrypt (s : State) : State := ctrRun s.inBuf s

/-- `DECRYPT.CTR` (rule R191): "the pseudocode of rule R190 unchanged". -/
def ctrDecrypt (s : State) : State := ctrRun s.inBuf s

/-- The command in flight in `REFILL_WAIT` (rules R138, R195): it stays while no answer has arrived; with
one, the stage is `RUN` again and the byte at `pos` goes on. The command port is not looked at (rule R270). -/
def resumeRefill (s : State) : State :=
  match s.replies with
  | [] => s
  | r :: rest =>
    match (acceptReply r ((s.withReplies rest).withStage .run)).startBlock with
    | .filled s' => ctrRun (s.inBuf.drop s.pos) s'
    | .raised cls cause s' => raiseStatus cls cause s'
    | .waiting s' => s'

end Sys2Proof.Machine
end

