-- ==== Sys2Proof/Machine/EcbCbc.lean ====
section
/-! DEFINITION. ECB and CBC (`42_ecb_cbc.md`): one unit is one block of `BS` bytes. -/

namespace Sys2Proof.Machine

/-- One block of `ENCRYPT.ECB` (rule R150). -/
def ecbEncBlock (s : State) (p : Bytes) : State × Bytes := (s.noteEnc, encBlock s p)

/-- One block of `DECRYPT.ECB` (rule R151). -/
def ecbDecBlock (s : State) (c : Bytes) : State × Bytes := (s.noteDec, decBlock s c)

/-- One block of `ENCRYPT.CBC` (rule R153): `tmp <- P xor iv`, `C = E(tmp)`, `iv <- C`. -/
def cbcEncBlock (s : State) (p : Bytes) : State × Bytes :=
  let x := xorBytes p s.ctx.iv
  let c := encBlock s x
  ((s.withCtx ((s.ctx.withTmp x).withIv c)).noteEnc, c)

/-- One block of `DECRYPT.CBC` (rule R154): `C` is staged in `old_cipher`, `tmp <- D(C)`, the output uses
the `iv` of before this block, and `iv <- C`. -/
def cbcDecBlock (s : State) (c : Bytes) : State × Bytes :=
  let x := decBlock s c
  ((s.withCtx (((s.ctx.withOldCipher c).withTmp x).withIv c)).noteDec, xorBytes x s.ctx.iv)

/-- `ENCRYPT.ECB` (rule R150). -/
def ecbEncrypt (s : State) : State := finishRun (runUnits ecbEncBlock (units s.bs s.inBuf) s)

/-- `DECRYPT.ECB` (rule R151). -/
def ecbDecrypt (s : State) : State := finishRun (runUnits ecbDecBlock (units s.bs s.inBuf) s)

/-- `ENCRYPT.CBC` (rule R153). -/
def cbcEncrypt (s : State) : State := finishRun (runUnits cbcEncBlock (units s.bs s.inBuf) s)

/-- `DECRYPT.CBC` (rule R154). -/
def cbcDecrypt (s : State) : State := finishRun (runUnits cbcDecBlock (units s.bs s.inBuf) s)

end Sys2Proof.Machine
end

