-- ==== Sys2Proof/Machine/Ofb.lean ====
section
/-! DEFINITION. OFB (`44_ofb.md`): one unit is one block, and both directions run the same procedure. -/

namespace Sys2Proof.Machine

/-- One block of `ENCRYPT.OFB` and of `DECRYPT.OFB` (rules R170, R171): `tmp <- E(iv)`, `iv <- tmp`, the
output is the input xor `tmp`. -/
def ofbBlock (s : State) (x : Bytes) : State × Bytes :=
  let k := encBlock s s.ctx.iv
  ((s.withCtx ((s.ctx.withTmp k).withIv k)).noteEnc, xorBytes x k)

/-- `ENCRYPT.OFB` (rule R170). -/
def ofbEncrypt (s : State) : State := finishRun (runUnits ofbBlock (units s.bs s.inBuf) s)

/-- `DECRYPT.OFB` (rule R171), "the same pseudocode as rule R170, byte for byte". -/
def ofbDecrypt (s : State) : State := finishRun (runUnits ofbBlock (units s.bs s.inBuf) s)

end Sys2Proof.Machine
end

