-- ==== Sys2Proof/Machine/Pgp.lean ====
section
/-! DEFINITION. PGP mode and `SYNC` (`45_pgp_sync.md`): one unit is one byte. -/

namespace Sys2Proof.Machine

/-- The PGP refill (rule R176), in this order: `old_cipher <- iv`, `iv <- E(old_cipher)`, `count <- 0`. -/
def pgpRefill (s : State) : State :=
  (s.withCtx (((s.ctx.withOldCipher s.ctx.iv).withIv (encBlock s s.ctx.iv)).withCount 0)).noteEnc

/-- "if ctx.count == BS: refill", made when a byte is about to be processed (rules R175, R177). -/
def pgpReady (s : State) : State := if s.ctx.count = s.bs then pgpRefill s else s

/-- One byte of `ENCRYPT.PGP` with the register ready (rule R177): the register byte takes the input by
xor and is the output. -/
def pgpEncReady (s : State) (b : Byte) : State × Bytes :=
  let c := byteAt s.ctx.iv s.ctx.count ^^^ b
  (s.withCtx ((s.ctx.withIv (s.ctx.iv.set s.ctx.count c)).withCount (s.ctx.count + 1)), [c])

/-- One byte of `DECRYPT.PGP` with the register ready (rule R178): the register byte takes the ciphertext,
the output is the keystream byte it replaced xor the input. -/
def pgpDecReady (s : State) (b : Byte) : State × Bytes :=
  let k := byteAt s.ctx.iv s.ctx.count
  (s.withCtx ((s.ctx.withIv (s.ctx.iv.set s.ctx.count b)).withCount (s.ctx.count + 1)), [k ^^^ b])

/-- One byte of `ENCRYPT.PGP` (rule R177). -/
def pgpEncByte (s : State) (b : Byte) : State × Bytes := pgpEncReady (pgpReady s) b

/-- One byte of `DECRYPT.PGP` (rule R178). -/
def pgpDecByte (s : State) (b : Byte) : State × Bytes := pgpDecReady (pgpReady s) b

/-- `ENCRYPT.PGP` (rule R177). -/
def pgpEncrypt (s : State) : State := finishRun (runUnits pgpEncByte s.inBuf s)

/-- `DECRYPT.PGP` (rule R178). -/
def pgpDecrypt (s : State) : State := finishRun (runUnits pgpDecByte s.inBuf s)

/-- What `SYNC` makes of a PGP context (rule R181): nothing when `count = PGP_FULL`; else the consumed
bytes move to the end, the front comes from `old_cipher` starting at `count`, and `count <- PGP_FULL`. All
old bytes are read before any is written. -/
def syncContext (full bs : Nat) (c : Context) : Context :=
  if c.count = full then c
  else (c.withIv (slice c.oldCipher c.count bs ++ c.iv.take c.count)).withCount full

/-- `SYNC` (rule R181). -/
def execSync (s : State) : Out :=
  if s.ctx.valid = false then .next (raise .noContext s)
  else if s.ctx.mode ≠ some .pgp then .next (raise .syncOffMode s)
  else .next (complete [] (s.withCtx (syncContext (pgpFullValue s) s.bs s.ctx)))

end Sys2Proof.Machine
end

