-- ==== Sys2Proof/Machine/Front.lean ====
section
/-! DEFINITION. The front end of `ENCRYPT` and `DECRYPT` and the dispatch on `ctx.mode`
(`41_dispatch_stage_control.md`). -/

namespace Sys2Proof.Machine

/-- The length check (rule R133) for an input of `len` bytes: the cause it raises, if any. -/
def lengthCause (c : Context) (bs len : Nat) : Option Cause :=
  match c.mode with
  | some .ecb => if len % bs ≠ 0 then some .lenNotBlockMultiple else none
  | some .cbc => if len % bs ≠ 0 then some .lenNotBlockMultiple else none
  | some .ofb => if len % bs ≠ 0 then some .lenNotBlockMultiple else none
  | some .cfb => if len % segmentBytes c.segmentSize ≠ 0 then some .lenNotSegmentMultiple else none
  | some .pgp => none
  | some .ctr => none
  | none => none

/-- Allocation fails if and only if `BUF_CAP` is a number and `len > BUF_CAP` (rule R135). -/
def allocFails (cap : Option Nat) (len : Nat) : Bool :=
  match cap with
  | none => false
  | some k => decide (k < len)

/-- The `ENCRYPT` column of rule R136. -/
def encryptVariant : Mode → State → State
  | .ecb, s => ecbEncrypt s
  | .cbc, s => cbcEncrypt s
  | .cfb, s => cfbEncrypt s
  | .pgp, s => pgpEncrypt s
  | .ofb, s => ofbEncrypt s
  | .ctr, s => ctrEncrypt s

/-- The `DECRYPT` column of rule R136. -/
def decryptVariant : Mode → State → State
  | .ecb, s => ecbDecrypt s
  | .cbc, s => cbcDecrypt s
  | .cfb, s => cfbDecrypt s
  | .pgp, s => pgpDecrypt s
  | .ofb, s => ofbDecrypt s
  | .ctr, s => ctrDecrypt s

/-- What `ENCRYPT` and `DECRYPT` share after their slot and prf checks (rules R130, R131): the empty buffer
(rule R134), the length check (R133), allocation (R135), dispatch (R136). -/
def dataPhase (variant : Mode → State → State) (buf : Bytes) (s : State) : Out :=
  if buf = [] then .next (complete [] s)
  else
    match lengthCause s.ctx s.bs buf.length with
    | some c => .next (raise c s)
    | none =>
      if allocFails s.params.bufCap buf.length = true then .next (raise .allocFailed s)
      else
        match s.ctx.mode with
        | some m => .next (variant m (allocate buf s))
        | none => .refused .noMode

/-- `ENCRYPT` (rule R130). -/
def execEncrypt (buf : Bytes) (s : State) : Out :=
  if s.ctx.valid = false then .next (raise .noContext s)
  else dataPhase encryptVariant buf s

/-- `DECRYPT` (rule R131): the `prf_mode` check of rule R132 comes before the empty buffer. -/
def execDecrypt (buf : Bytes) (s : State) : Out :=
  if s.ctx.valid = false then .next (raise .noContext s)
  else if s.ctx.prfMode = true then .next (raise .decryptDisabled s)
  else dataPhase decryptVariant buf s

end Sys2Proof.Machine
end

