-- ==== Sys2Proof/Machine/Introspect.lean ====
section
/-! DEFINITION. prf mode and read-only introspection (`47_prf_introspection.md`). -/

namespace Sys2Proof.Machine

/-- The four reads: `NO_CONTEXT` on an empty slot, else the result, and no state is written (rule R211). -/
def contextRead (result : Bytes) (s : State) : Out :=
  if s.ctx.valid = false then .next (raise .noContext s)
  else .next (complete result s)

/-- `SET_PRF V` (rule R205). -/
def execSetPrf (v : Bool) (s : State) : Out :=
  if s.ctx.valid = false then .next (raise .noContext s)
  else .next (complete [] (s.withCtx (s.ctx.withPrfMode v)))

/-- `GET_IV` (rule R207). -/
def execGetIv (s : State) : Out := contextRead s.ctx.iv s

/-- `GET_MODE` (rule R208). -/
def execGetMode (s : State) : Out := contextRead [modeIdOf s.ctx.mode] s

/-- `GET_BLOCK_SIZE` (rule R209). -/
def execGetBlockSize (s : State) : Out := contextRead (be32 (sizeWord s.bs)) s

/-- `GET_KEY_SIZE` (rule R210). -/
def execGetKeySize (s : State) : Out := contextRead (be32 (sizeWord s.ks)) s

end Sys2Proof.Machine
end

