-- ==== Sys2Proof/Machine/Dispatch.lean ====
section
/-! DEFINITION. One arm per command: which meaning each row of the opcode table has. -/

namespace Sys2Proof.Machine

def exec (i : Instr) (s : State) : Host.Outcome State Fault Refusal :=
  match i with
  | .ctxNew mode csrc key iv seg => Sys2Proof.Machine.execCtxNew mode csrc key iv seg s
  | .encrypt buf => Sys2Proof.Machine.execEncrypt buf s
  | .decrypt buf => Sys2Proof.Machine.execDecrypt buf s
  | .sync => Sys2Proof.Machine.execSync s
  | .setPrf v => Sys2Proof.Machine.execSetPrf v s
  | .getIv => Sys2Proof.Machine.execGetIv s
  | .getMode => Sys2Proof.Machine.execGetMode s
  | .getBlockSize => Sys2Proof.Machine.execGetBlockSize s
  | .getKeySize => Sys2Proof.Machine.execGetKeySize s
  | .ctxDestroy => Sys2Proof.Machine.execCtxDestroy s
  | .genNewBe aw ds pfx sfx initial => Sys2Proof.Machine.execGenNewBe aw ds pfx sfx initial s
  | .genNewLe aw ds pfx sfx initial => Sys2Proof.Machine.execGenNewLe aw ds pfx sfx initial s
  | .genInvoke => Sys2Proof.Machine.execGenInvoke s
  | .genNextValue => Sys2Proof.Machine.execGenNextValue s
  | .genGetCarry => Sys2Proof.Machine.execGenGetCarry s
  | .genDestroy => Sys2Proof.Machine.execGenDestroy s

end Sys2Proof.Machine
end

