-- ==== Sys2Proof/Machine/Accept.lean ====
section
/-! DEFINITION. Taking a command from the command port (`30_encoding.md` rule R91): the bodies that
`Step.lean` calls. -/

namespace Sys2Proof.Machine

/-- `IDLE -> CHECK`: the head of the command port is consumed whole, header and operands (rules R76, R94,
R138). -/
def accept (rest : List Transaction) (s : State) : State := { s with cmdPort := rest, stage := .check }

/-- Decode a transaction and run its command; an illegal one is answered with
`ConfigurationError(ILLEGAL_COMMAND)` and changes neither slot (rules R91, R94). -/
def runTransaction (t : Transaction) (s : State) : Out :=
  match decode t with
  | .error _ => .next (raise .illegalCommand s)
  | .ok i => exec i s

/-- Offer a transaction ahead of everything else on the command port of an idle block. -/
def offerFirst (t : Transaction) (s : State) : State :=
  { s with cmdPort := t :: s.cmdPort, stage := .idle }

end Sys2Proof.Machine
end

