-- ==== Sys2Proof/Machine/Step.lean ====
section
/-! DEFINITION. One step of the machine. -/

namespace Sys2Proof.Machine

/-- One step. In `IDLE` the block takes the next command from the command port and runs it to its response,
or to `REFILL_WAIT` (rules R71, R138, R270); with nothing offered it stays idle. In `REFILL_WAIT` the
command in flight goes on with the answer that has arrived, or stays (rule R195). The other stages are
passed inside a step only. -/
def step (s : State) : Out :=
  match s.stage with
  | .idle =>
    match s.cmdPort with
    | [] => .next s
    | t :: rest => runTransaction t (accept rest s)
  | .refillWait => .next (resumeRefill s)
  | .check => .fault (.transientStage .check)
  | .alloc => .fault (.transientStage .alloc)
  | .run => .fault (.transientStage .run)
  | .done => .fault (.transientStage .done)
  | .fail => .fault (.transientStage .fail)

/-- The instruction whose opcode-table bits are `w` offered as the next command of an idle block; a command
reaches the block only from outside, so this stands for the host issuing it (log entry 4). -/
def State.withFetchWord (s : State) (nbits w : Nat) : State := offerFirst (tableTransaction nbits w) s

end Sys2Proof.Machine
end

