-- ==== Sys2Proof/Safety.lean ====
section
/-! DEFINITION. What counts as a state the block can be in between two steps: the invariants of a valid
context (`10_state.md` rule R30), of the generator slot (rules R40 to R48), of an empty slot (rules R35,
R50) and of the sequencing state (rules R33, R34); and the words statements use for an answer. -/

namespace Sys2Proof.Machine

/-- The invariants of the context slot. -/
structure ContextInv (bs : Nat) (c : Context) : Prop where
  /-- "`iv` ... always exactly `block_size` bytes" (rule R30). -/
  ivLength : c.iv.length = bs
  /-- "`old_cipher` always exactly `block_size` bytes" (rule R30). -/
  oldCipherLength : c.oldCipher.length = bs
  /-- `tmp` is a scratch array of length `BS` (rule R32). -/
  tmpLength : c.tmp.length = bs
  /-- "`count` never exceeds `block_size`" (rule R30). -/
  countLe : c.count ≤ bs
  /-- An empty slot holds the reset values (rules R35, R260). -/
  emptySlot : c.valid = false → c = Context.cleared bs
  /-- A valid context has one of the six modes (rules R21, R136). -/
  hasMode : c.valid = true → c.mode ≠ none
  /-- "`ctx.valid = 0` whenever `ctx.st = ST_ZERO`" (rule R23). -/
  hasKey : c.valid = true → c.st ≠ .zero
  /-- `ctx.mode = CTR ⇔ ctx.csrc ≠ NONE` (rule R28). -/
  counterIffCtr : c.valid = true → (c.mode = some .ctr ↔ c.csrc ≠ .none)
  /-- A CFB context has a legal segment size (rules R26, R115). -/
  segmentOk : c.valid = true → c.mode = some .cfb → segmentSizeOk c.segmentSize bs = true
  /-- "in PGP mode `1 ≤ ctx.count ≤ BS` between commands" (rule R30), and `BS ≥ 8` (rule R114). -/
  pgpCount : c.valid = true → c.mode = some .pgp → 8 ≤ bs ∧ 1 ≤ c.count
  /-- "in CTR mode `1 ≤ ctx.count ≤ BS` between commands likewise" (rule R30). -/
  ctrCount : c.valid = true → c.mode = some .ctr → 1 ≤ c.count

/-- The invariants of the generator slot. -/
structure GeneratorInv (g : Generator) : Prop where
  /-- `gen.buf` is `W = p + n + q` bytes (rule R43). -/
  bufLength : g.buf.length = genWidth g
  /-- `prefix` has at most 65535 bytes (rule R41). -/
  pLe : g.p ≤ genPartMax
  /-- `value` has at most 65535 bytes (rule R42). -/
  nLe : g.n ≤ genPartMax
  /-- `suffix` has at most 65535 bytes (rule R41). -/
  qLe : g.q ≤ genPartMax
  /-- An empty slot holds the reset values (rules R50, R260). -/
  emptySlot : g.valid = false → g = Generator.cleared
  /-- `value` has at least one byte (rule R42). -/
  valuePos : g.valid = true → 1 ≤ g.n
  /-- The last increment overflowed exactly when it left `value` all zero (rules R45, R48, R221): with
  `carry` set the value is `zeros(n)`. -/
  carryZero : g.carry = true → genValue g = zeros g.n

/-- The two slots are as they can be between two commands, and `BS` is positive (rule R22). -/
structure SlotsInv (s : State) : Prop where
  blockSizePos : 1 ≤ s.bs
  ctx : ContextInv s.bs s.ctx
  gen : GeneratorInv s.gen

/-- A command is in flight: only `ENCRYPT` or `DECRYPT` of a CTR context with an external source, at a byte
that needs a refill (rules R34, R138, R195). -/
structure WaitingInv (s : State) : Prop where
  valid : s.ctx.valid = true
  ctr : s.ctx.mode = some .ctr
  external : s.ctx.csrc = .external
  exhausted : s.ctx.count = s.bs
  posLt : s.pos < s.inBuf.length
  written : s.outBuf.length = s.pos

/-- The invariant of the machine between two steps. -/
structure State.Inv (s : State) : Prop where
  slots : SlotsInv s
  /-- Between steps the stage is `IDLE` or `REFILL_WAIT` (rules R33, R138). -/
  settled : s.stage = .idle ∨ s.stage = .refillWait
  /-- In `IDLE` no command is in flight (rules R33, R245). -/
  idleClean : s.stage = .idle → s.pos = 0 ∧ s.inBuf = [] ∧ s.outBuf = []
  waiting : s.stage = .refillWait → WaitingInv s

/-- The state after a command has answered `status` and `result`: one response more on the data-out stream,
the stage `IDLE`, no command in flight, everything else as in `s` (rules R96, R97, R138). -/
def answered (s : State) (status : Word) (result : Bytes) : State :=
  { s with
    stage := .idle
    pos := 0
    inBuf := []
    outBuf := []
    dataOut := s.dataOut ++ [{ status := status, result := result }] }

/-- A run is safe from `s` for `k` steps: no step of it ends in a fault or a refusal. -/
def SafeFor : Nat → State → Prop
  | 0, _ => True
  | k + 1, s => ∃ t, step s = .next t ∧ SafeFor k t

end Sys2Proof.Machine
end

