-- ==== Sys2Proof/WellFormed.lean ====
section
/-! DEFINITION. Which commands the bit-level form can carry: the length of a byte-string operand is an
unsigned 32-bit field (`30_encoding.md` rule R87), so "operand byte strings longer than `2^32 - 1` bytes
cannot be expressed in the bit-level form" (rule R100). -/

namespace Sys2Proof

/-- `LEN` of this byte string fits its 32-bit field (rule R87). -/
def fitsLen (b : Bytes) : Bool := decide (b.length < 2 ^ 32)

/-- The operand has a bit-level form. -/
def Operand.wellFormed : Operand → Bool
  | .bytes b => fitsLen b
  | .word _ => true

/-- The command has a bit-level form: every byte-string operand fits its length field. -/
def Instr.wellFormed : Instr → Bool
  | .ctxNew _ _ key iv _ => fitsLen key && fitsLen iv
  | .encrypt buf => fitsLen buf
  | .decrypt buf => fitsLen buf
  | .sync => true
  | .setPrf _ => true
  | .getIv => true
  | .getMode => true
  | .getBlockSize => true
  | .getKeySize => true
  | .ctxDestroy => true
  | .genNewBe _ _ pfx sfx initial => fitsLen pfx && fitsLen sfx && fitsLen initial
  | .genNewLe _ _ pfx sfx initial => fitsLen pfx && fitsLen sfx && fitsLen initial
  | .genInvoke => true
  | .genNextValue => true
  | .genGetCarry => true
  | .genDestroy => true

end Sys2Proof
end

