-- ==== Sys2Proof/Certificates/Slice0/Obligations.lean ====
section
/-! DEFINITION. The statements for the provers. Each says which rules of spec/ it formalises; the answers are
written with `answered` (one response, back in `IDLE`, everything else as in the state given), so a statement
of the form `exec i s = .next (answered u status result)` states the whole next state, its frame with it. -/

open Sys2Proof Sys2Proof.Machine

namespace Sys2Proof.Spec

/-- `b[i*u .. (i+1)*u)`: unit `i` of a buffer cut into units of `u` bytes. -/
def unitAt (u i : Nat) (b : Bytes) : Bytes := (b.drop (i * u)).take u

/-- The unit before unit `i`, the register `iv` standing before unit 0. -/
def unitBefore (u i : Nat) (iv b : Bytes) : Bytes := if i = 0 then iv else unitAt u (i - 1) b

/-- The last `n` bytes of a byte string. -/
def lastBytes (n : Nat) (b : Bytes) : Bytes := b.drop (b.length - n)

/-- `n` bytes of `k`, least significant first (`k` modulo `256^n`). -/
def leBytes : Nat → Nat → Bytes
  | 0, _ => []
  | n + 1, k => BitVec.ofNat 8 (k % 256) :: leBytes n (k / 256)

/-- `enc` of `48_counter_generator.md` rule R222: an integer as `n` bytes in the generator's endianness. -/
def encodeValue (e : Endianness) (n k : Nat) : Bytes :=
  match e with
  | .big => (leBytes n k).reverse
  | .little => leBytes n k

/-- The output `prefix ‖ enc(k) ‖ suffix` of a generator whose value is the integer `k` modulo `256^n`. -/
def counterBlock (g : Generator) (k : Nat) : Bytes :=
  genPrefix g ++ encodeValue g.endianness g.n k ++ genSuffix g

/-- `ENCRYPT` or, with `dec`, `DECRYPT`. -/
def crypt (dec : Bool) (buf : Bytes) : Instr := if dec = true then .decrypt buf else .encrypt buf

/-- The front-end conditions on the state and the buffer under which `ENCRYPT` (`dec = false`) or `DECRYPT`
reaches its data phase in mode `m`, but for the length rule of the mode (rules R130, R131, R135). -/
structure Ready (dec : Bool) (m : Mode) (buf : Bytes) (s : State) : Prop where
  slots : SlotsInv s
  valid : s.ctx.valid = true
  mode : s.ctx.mode = some m
  mayDecrypt : dec = true → s.ctx.prfMode = false
  nonempty : buf ≠ []
  fits : ∀ cap, s.params.bufCap = some cap → buf.length ≤ cap

/-- The response `t` has sent in addition to those of `s` is `OK` with this result, and the block is idle. -/
def AnsweredOk (s t : State) (out : Bytes) : Prop :=
  t.stage = .idle ∧ t.dataOut = s.dataOut ++ [{ status := 0, result := out }]

/-- The response `t` has sent in addition to those of `s` is an error, and the block is idle. -/
def AnsweredError (s t : State) : Prop :=
  t.stage = .idle ∧ ∃ r : Response, t.dataOut = s.dataOut ++ [r] ∧ r.status ≠ 0

/-- Rule R112 passes. -/
def KeyOk (key : Bytes) (s : State) : Prop := key.length ≠ 0 ∧ (s.ks = 0 ∨ key.length = s.ks)

/-- The IV check of rule R113 passes. -/
def IvOk (iv : Bytes) (s : State) : Prop := iv.length = 0 ∨ iv.length = s.bs

/-- The mode identifiers of rule R92. -/
def modeTable : List (Byte × Mode) :=
  [(1, .ecb), (2, .cbc), (3, .cfb), (5, .pgp), (6, .ofb), (7, .ctr)]

/-- The mode check of rule R113 passes. -/
def ModeOk (mode : Byte) : Prop := mode = 1 ∨ mode = 2 ∨ mode = 3 ∨ mode = 5 ∨ mode = 6 ∨ mode = 7

/-- Rule R114 passes. -/
def PgpBlockOk (mode : Byte) (s : State) : Prop := mode = 5 → 8 ≤ s.bs

/-- `seg` of rule R115. -/
def segAsked (seg : Word) : Nat := if seg = 0 then 8 else seg.toNat

/-- Rule R115 passes. -/
def SegOk (mode : Byte) (seg : Word) (s : State) : Prop :=
  mode = 3 → 1 ≤ segAsked seg ∧ segAsked seg ≤ s.bs * 8 ∧ segAsked seg % 8 = 0

/-- The first two lines of rule R116 pass. -/
def CounterGiven (mode : Byte) (csrc : CounterSource) : Prop := mode = 7 ↔ csrc ≠ .none

/-- The third line of rule R116 passes. -/
def EngineThere (csrc : CounterSource) (s : State) : Prop := csrc = .engine → s.gen.valid = true

/-- `k` times `GEN_INVOKE`, each from the state the one before left. -/
def invokeTimes : Nat → State → Option State
  | 0, s => some s
  | k + 1, s =>
    match exec .genInvoke s with
    | .next t => invokeTimes k t
    | .fault _ => none
    | .refused _ => none

/-- How many of the `len` bytes of a command find the register exhausted (rule R285). -/
def refillCount (bs c0 len : Nat) : Nat := ((List.range len).filter fun j => (c0 + j) % bs == 0).length

/-- The commands of the generator slot. -/
def isGeneratorCommand : Instr → Bool
  | .genNewBe _ _ _ _ _ => true
  | .genNewLe _ _ _ _ _ => true
  | .genInvoke => true
  | .genNextValue => true
  | .genGetCarry => true
  | .genDestroy => true
  | .ctxNew _ _ _ _ _ => false
  | .encrypt _ => false
  | .decrypt _ => false
  | .sync => false
  | .setPrf _ => false
  | .getIv => false
  | .getMode => false
  | .getBlockSize => false
  | .getKeySize => false
  | .ctxDestroy => false

/-- `ENCRYPT` and `DECRYPT`. -/
def isDataCommand : Instr → Bool
  | .encrypt _ => true
  | .decrypt _ => true
  | .ctxNew _ _ _ _ _ => false
  | .sync => false
  | .setPrf _ => false
  | .getIv => false
  | .getMode => false
  | .getBlockSize => false
  | .getKeySize => false
  | .ctxDestroy => false
  | .genNewBe _ _ _ _ _ => false
  | .genNewLe _ _ _ _ _ => false
  | .genInvoke => false
  | .genNextValue => false
  | .genGetCarry => false
  | .genDestroy => false

/-- The command the next step of `s` takes from the command port. -/
def NextCommand (s : State) (i : Instr) : Prop :=
  s.stage = .idle ∧ ∃ t rest, s.cmdPort = t :: rest ∧ decode t = .ok i

/-- A transaction that rule R94 calls illegal: an `OPC` outside rule R89, a 1 in a must-be-zero header bit,
`CSRC = 3`, or an operand list that does not match rule R88. -/
def IllegalTransaction (t : Transaction) : Prop :=
  (∀ op, opcodeNumber op ≠ t.header.extractLsb' 24 8) ∨
  (∃ op, opcodeNumber op = t.header.extractLsb' 24 8 ∧ t.header &&& opcodeMask op ≠ opcodeMatch op) ∨
  t.header.extractLsb' 8 2 = 3#2 ∨
  (∃ op, opcodeNumber op = t.header.extractLsb' 24 8 ∧ t.operands.map operandKindOf ≠ operandKinds op)

/-- The ciphertext history of a PGP command that starts with `count` bytes of the register in use: those
bytes, then the ciphertext `ct` of the command. -/
def pgpHistory (s : State) (ct : Bytes) : Bytes := s.ctx.iv.take s.ctx.count ++ ct

/-- The keystream of block `k` of that history: the register as it stands for block 0, then `E` of the block
before (`45_pgp_sync.md` rule R176). -/
def pgpKeyBlock (s : State) (ct : Bytes) (k : Nat) : Bytes :=
  if k = 0 then s.ctx.iv else cipherEnc s.ctx.st (unitAt s.bs (k - 1) (pgpHistory s ct))

end Sys2Proof.Spec

open Sys2Proof.Spec

/-! ## Encoding -/

/-- O1. Reading back the serial form of a well-formed command gives the command, for every command and every
operand (rules R85 to R89). -/
def Obligations.DecodeBytesInvertsEncodeBytes : Prop :=
  ∀ i : Instr, i.wellFormed = true → decodeBytes (encodeBytes i) = .ok i

/-- O2. On the command port every transaction that decodes is the encoding of what it decodes to, and every
encoding decodes to its command: no header bit is dropped and no transaction has two meanings (rules R89, R91). -/
def Obligations.TransactionDecodesExactlyToWhatEncodesIt : Prop :=
  ∀ (t : Transaction) (i : Instr), decode t = .ok i ↔ t = encode i

/-- O3. The step from `IDLE` answers an illegal transaction with `ConfigurationError(ILLEGAL_COMMAND)` and
empty output, drops it whole, and changes neither slot; and a transaction is refused by the decoder exactly
when it is illegal (rule R94). -/
def Obligations.IllegalCommandIsRefusedWhole : Prop :=
  (∀ (s : State) (t : Transaction) (rest : List Transaction), s.stage = .idle → s.cmdPort = t :: rest →
    IllegalTransaction t →
    step s = .next (answered { s with cmdPort := rest } 0x00000101 [])) ∧
  (∀ t : Transaction, (∃ i, decode t = .ok i) ↔ ¬ IllegalTransaction t)

/-- O4. Command words written out from the encodings of rule R89 and the programs of `95_test_vectors.md`
section 4 decode to the commands they stand for. -/
def Obligations.WordsFromTheSpecDecode : Prop :=
  decodeTableWord 32 0x10000107 = some (.ctxNew 7 .engine [] [] 0) ∧
  decodeTableWord 32 0x10000202 = some (.ctxNew 2 .external [] [] 0) ∧
  decodeTableWord 32 0x11000000 = some (.encrypt []) ∧
  decodeTableWord 32 0x12000000 = some (.decrypt []) ∧
  decodeTableWord 32 0x13000000 = some .sync ∧
  decodeTableWord 32 0x14000001 = some (.setPrf true) ∧
  decodeTableWord 32 0x1F000000 = some .ctxDestroy ∧
  decodeTableWord 32 0x20000002 = some (.genNewBe false true [] [] []) ∧
  decodeTableWord 32 0x21000001 = some (.genNewLe true false [] [] []) ∧
  decodeTableWord 32 0x22000000 = some .genInvoke ∧
  decodeTableWord 32 0x2F000000 = some .genDestroy ∧
  decodeTableWord 32 0x30000000 = none ∧
  decodeTableWord 32 0x10000302 = none ∧
  decodeTableWord 32 0x11000001 = none ∧
  decodeBytes [0x11, 0, 0, 0, 0, 0, 0, 3, 0, 1, 2] = .ok (.encrypt [0, 1, 2])

/-- O5. No header selects two rows of the opcode table (rule R89). -/
def Obligations.OpcodeRowsAreDisjoint : Prop :=
  ∀ (h : Word) (a b : Opcode), h &&& opcodeMask a = opcodeMatch a → h &&& opcodeMask b = opcodeMatch b → a = b

/-! ## The step -/

/-- O6. A STEP RUNS THE DECODED COMMAND: in `IDLE`, when the transaction at the head of the command port
decodes to `i`, the step is `exec i` at that state with the transaction consumed and the stage `CHECK`; and
the encoding of every command is such a transaction (rules R91, R138). -/
def Obligations.StepRunsTheDecodedCommand : Prop :=
  (∀ (s : State) (t : Transaction) (rest : List Transaction) (i : Instr), s.stage = .idle →
    s.cmdPort = t :: rest → decode t = .ok i →
    step s = exec i { s with cmdPort := rest, stage := .check }) ∧
  (∀ (s : State) (rest : List Transaction) (i : Instr), s.stage = .idle → s.cmdPort = encode i :: rest →
    step s = exec i { s with cmdPort := rest, stage := .check })

/-- O7. EVERY STEP KEEPS THE INVARIANT of the two slots and of the sequencing state (rules R30, R33, R34, R40
to R48). -/
def Obligations.EveryStepKeepsTheInvariant : Prop :=
  ∀ s t : State, s.Inv → step s = .next t → t.Inv

/-- O8. The machine right after reset meets the invariant. -/
def Obligations.ResetMeetsTheInvariant : Prop := State.reset.Inv

/-- O9. No error halts the block: from a state that meets the invariant every step answers a next state, and
so does every run of `k` steps (rules R243, R247). -/
def Obligations.InvariantStatesNeverStop : Prop :=
  ∀ (s : State) (k : Nat), s.Inv → SafeFor k s

/-- O10. "Every command, legal or not, produces exactly one response on the data-out stream, after the command
has ended" (rule R96): a step that takes a command, or that goes on with the one in flight, either ends it
with exactly one response or leaves it waiting for the external source with none sent. That an idle block with
nothing offered and a waiting one with no answer stay as they are is the model's reading, log entry 16 (from rules
R138 and R272). -/
def Obligations.OneResponsePerCommand : Prop :=
  ∀ s t : State, s.Inv → step s = .next t →
    (s.stage = .idle → s.cmdPort = [] → t = s) ∧
    (s.stage = .idle → s.cmdPort ≠ [] →
      (t.stage = .idle ∧ ∃ r, t.dataOut = s.dataOut ++ [r]) ∨
      (t.stage = .refillWait ∧ t.dataOut = s.dataOut)) ∧
    (s.stage = .refillWait → s.replies = [] → t = s) ∧
    (s.stage = .refillWait → s.replies ≠ [] →
      (t.stage = .idle ∧ ∃ r, t.dataOut = s.dataOut ++ [r]) ∨
      (t.stage = .refillWait ∧ t.dataOut = s.dataOut))

/-- O11. What reset leaves (rule R260): every field of both slots, the scratch block, the stage and `pos`,
and no outstanding request. -/
def Obligations.ResetLeavesTheValuesOfTheSpec : Prop :=
  State.reset.ctx.valid = false ∧ State.reset.ctx.st = .zero ∧ State.reset.ctx.mode = none ∧
  State.reset.ctx.segmentSize = 0 ∧ State.reset.ctx.count = 0 ∧ State.reset.ctx.csrc = .none ∧
  State.reset.ctx.prfMode = false ∧
  State.reset.ctx.iv = List.replicate State.reset.bs 0 ∧
  State.reset.ctx.oldCipher = List.replicate State.reset.bs 0 ∧
  State.reset.ctx.tmp = List.replicate State.reset.bs 0 ∧
  State.reset.gen.valid = false ∧ State.reset.gen.buf = [] ∧ State.reset.gen.p = 0 ∧
  State.reset.gen.n = 0 ∧ State.reset.gen.q = 0 ∧ State.reset.gen.endianness = .big ∧
  State.reset.gen.carry = false ∧ State.reset.gen.allowWraparound = false ∧
  State.reset.gen.shortcutEnabled = false ∧
  State.reset.stage = .idle ∧ State.reset.pos = 0 ∧ State.reset.requestOutstanding = false

/-- O12. "The state after `CTX_DESTROY` plus `GEN_DESTROY` equals the reset state" (rule R260), for both slots
and the sequencing state, whatever they held before. -/
def Obligations.DestroyingBothSlotsGivesTheResetState : Prop :=
  ∀ s : State, s.ctx.valid = true → s.gen.valid = true →
    ∃ t u : State, exec .ctxDestroy s = .next t ∧ exec .genDestroy t = .next u ∧
      u = { platformReset s with
            dataOut := s.dataOut ++ [{ status := 0, result := [] }, { status := 0, result := [] }] } ∧
      u.ctx = Context.cleared s.bs ∧ u.gen = Generator.cleared ∧ u.stage = .idle ∧ u.pos = 0

/-! ## Errors -/

/-- O13. The status word of every cause (rule R236), in the answer that raising it sends; and raising writes
nothing else (rule R242). -/
def Obligations.StatusWordOfEveryCause : Prop :=
  ∀ s : State,
    raise .illegalCommand s = answered s 0x00000101 [] ∧ raise .noContext s = answered s 0x00000201 [] ∧
    raise .noGenerator s = answered s 0x00000301 [] ∧ raise .slotBusy s = answered s 0x00000401 [] ∧
    raise .badKeyLength s = answered s 0x00001001 [] ∧ raise .badIvLength s = answered s 0x00001101 [] ∧
    raise .unknownMode s = answered s 0x00001201 [] ∧ raise .pgpBlockTooSmall s = answered s 0x00001301 [] ∧
    raise .badSegmentSize s = answered s 0x00001401 [] ∧ raise .counterRequired s = answered s 0x00001501 [] ∧
    raise .counterForbidden s = answered s 0x00001601 [] ∧ raise .counterShape s = answered s 0x00001701 [] ∧
    raise .badCounterParam s = answered s 0x00001801 [] ∧ raise .decryptDisabled s = answered s 0x00002001 [] ∧
    raise .syncOffMode s = answered s 0x00002101 [] ∧
    raise .lenNotBlockMultiple s = answered s 0x00000102 [] ∧
    raise .lenNotSegmentMultiple s = answered s 0x00000202 [] ∧
    raise .counterWrapped s = answered s 0x00000103 [] ∧ raise .allocFailed s = answered s 0x00000104 []

/-- O14. A failed command leaves both slots "exactly as before the command" (rule R244, its first two rows),
unless it is `ENCRYPT` or `DECRYPT` on a CTR context. -/
def Obligations.FailedCommandOutsideCtrLeavesBothSlots : Prop :=
  ∀ (i : Instr) (s t : State), exec i s = .next t → AnsweredError s t →
    (isDataCommand i = true → s.ctx.mode ≠ some .ctr) →
    t.ctx = s.ctx ∧ t.gen = s.gen ∧ t.replies = s.replies

/-- O15. A CTR command that fails in its data phase leaves the state "as if a command on `IN[0..i)` had
succeeded" for the `i` bytes consumed before the refill that failed, with `ctx.count = BS` and no output; the
engine is advanced once more exactly where the failing refill is the generic one with `W ≠ BS` (rules R196,
R244, its third row, and R245). -/
def Obligations.FailedCtrCommandKeepsTheConsumedPrefix : Prop :=
  ∀ (dec : Bool) (buf : Bytes) (s t : State), Ready dec .ctr buf s →
    exec (crypt dec buf) s = .next t → AnsweredError s t →
    ∃ (i : Nat) (u : State) (out : Bytes) (status : Word), i < buf.length ∧
      exec (crypt dec (buf.take i)) s = .next u ∧ AnsweredOk s u out ∧
      t.ctx = u.ctx ∧ t.ctx.count = s.bs ∧
      t.dataOut = s.dataOut ++ [{ status := status, result := [] }] ∧
      ((s.ctx.csrc = .engine ∧ s.gen.shortcutEnabled = false ∧ genWidth s.gen ≠ s.bs ∧
          s.gen.valid = true ∧ genBlocked s.gen = false → t.gen = genIncrement u.gen) ∧
       (¬ (s.ctx.csrc = .engine ∧ s.gen.shortcutEnabled = false ∧ genWidth s.gen ≠ s.bs ∧
          s.gen.valid = true ∧ genBlocked s.gen = false) → t.gen = u.gen))

/-- O16. `CTX_NEW` reports the first of its checks that fails, in the order of rules R110 to R117, and a
failure writes nothing (rules R119, R241). -/
def Obligations.CtxNewReportsTheFirstFailingCheck : Prop :=
  ∀ (mode : Byte) (csrc : CounterSource) (key iv : Bytes) (seg : Word) (s : State),
    (s.ctx.valid = true →
      exec (.ctxNew mode csrc key iv seg) s = .next (answered s 0x00000401 [])) ∧
    (s.ctx.valid = false → ¬ KeyOk key s →
      exec (.ctxNew mode csrc key iv seg) s = .next (answered s 0x00001001 [])) ∧
    (s.ctx.valid = false → KeyOk key s → ¬ IvOk iv s →
      exec (.ctxNew mode csrc key iv seg) s = .next (answered s 0x00001101 [])) ∧
    (s.ctx.valid = false → KeyOk key s → IvOk iv s → ¬ ModeOk mode →
      exec (.ctxNew mode csrc key iv seg) s = .next (answered s 0x00001201 [])) ∧
    (s.ctx.valid = false → KeyOk key s → IvOk iv s → ModeOk mode → ¬ PgpBlockOk mode s →
      exec (.ctxNew mode csrc key iv seg) s = .next (answered s 0x00001301 [])) ∧
    (s.ctx.valid = false → KeyOk key s → IvOk iv s → ModeOk mode → PgpBlockOk mode s →
      ¬ SegOk mode seg s →
      exec (.ctxNew mode csrc key iv seg) s = .next (answered s 0x00001401 [])) ∧
    (s.ctx.valid = false → KeyOk key s → IvOk iv s → ModeOk mode → PgpBlockOk mode s → SegOk mode seg s →
      ¬ CounterGiven mode csrc →
      exec (.ctxNew mode csrc key iv seg) s
        = .next (answered s (if mode = 7 then 0x00001501 else 0x00001601) [])) ∧
    (s.ctx.valid = false → KeyOk key s → IvOk iv s → ModeOk mode → PgpBlockOk mode s → SegOk mode seg s →
      CounterGiven mode csrc → ¬ EngineThere csrc s →
      exec (.ctxNew mode csrc key iv seg) s = .next (answered s 0x00001701 [])) ∧
    (s.ctx.valid = false → KeyOk key s → IvOk iv s → ModeOk mode → PgpBlockOk mode s → SegOk mode seg s →
      CounterGiven mode csrc → EngineThere csrc s → cipherInit s.params.cipher key = none →
      exec (.ctxNew mode csrc key iv seg) s
        = .next (answered { s with ports := { s.ports with init := s.ports.init + 1 } } 0x00001001 []))

/-- O17. The front-end checks of `ENCRYPT` and `DECRYPT` after the slot and prf checks: the length rule of the
mode (rules R68, R69), then allocation (rule R135); each refuses before any byte is processed and writes no
state. That allocation fails exactly when the length exceeds `BUF_CAP` is the deterministic reading of rule R135 that
the model takes, log entry 19. -/
def Obligations.LengthThenAllocationIsChecked : Prop :=
  ∀ (dec : Bool) (buf : Bytes) (s : State), s.ctx.valid = true → (dec = true → s.ctx.prfMode = false) →
    buf ≠ [] →
    ((s.ctx.mode = some .ecb ∨ s.ctx.mode = some .cbc ∨ s.ctx.mode = some .ofb) → buf.length % s.bs ≠ 0 →
      exec (crypt dec buf) s = .next (answered s 0x00000102 [])) ∧
    (s.ctx.mode = some .cfb → buf.length % (s.ctx.segmentSize / 8) ≠ 0 →
      exec (crypt dec buf) s = .next (answered s 0x00000202 [])) ∧
    (∀ cap, s.params.bufCap = some cap → cap < buf.length →
      ((s.ctx.mode = some .ecb ∨ s.ctx.mode = some .cbc ∨ s.ctx.mode = some .ofb) → buf.length % s.bs = 0) →
      (s.ctx.mode = some .cfb → buf.length % (s.ctx.segmentSize / 8) = 0) →
      exec (crypt dec buf) s = .next (answered s 0x00000104 []))

/-- O18. The nine context commands on an empty slot raise `NO_CONTEXT` as their first check and write nothing
(rule R141). -/
def Obligations.ContextCommandsNeedAContext : Prop :=
  ∀ (s : State) (buf : Bytes) (v : Bool), s.ctx.valid = false →
    exec (.encrypt buf) s = .next (answered s 0x00000201 []) ∧
    exec (.decrypt buf) s = .next (answered s 0x00000201 []) ∧
    exec .sync s = .next (answered s 0x00000201 []) ∧
    exec (.setPrf v) s = .next (answered s 0x00000201 []) ∧
    exec .getIv s = .next (answered s 0x00000201 []) ∧
    exec .getMode s = .next (answered s 0x00000201 []) ∧
    exec .getBlockSize s = .next (answered s 0x00000201 []) ∧
    exec .getKeySize s = .next (answered s 0x00000201 []) ∧
    exec .ctxDestroy s = .next (answered s 0x00000201 [])

/-- O19. The four generator commands on an empty slot raise `NO_GENERATOR` and write nothing (rules R220, R224
to R226). -/
def Obligations.GeneratorCommandsNeedAGenerator : Prop :=
  ∀ s : State, s.gen.valid = false →
    exec .genInvoke s = .next (answered s 0x00000301 []) ∧
    exec .genNextValue s = .next (answered s 0x00000301 []) ∧
    exec .genGetCarry s = .next (answered s 0x00000301 []) ∧
    exec .genDestroy s = .next (answered s 0x00000301 [])

/-! ## The context slot -/

/-- O20. A `CTX_NEW` that passes its checks and whose `Init` succeeds builds the context of rule R118, keeps
`tmp` (rule R35) and answers `OK`; the generator slot is not written. -/
def Obligations.CtxNewBuildsTheContext : Prop :=
  ∀ (mode : Byte) (m : Mode) (csrc : CounterSource) (key iv : Bytes) (seg : Word) (st0 : CipherState)
    (s : State), s.ctx.valid = false → KeyOk key s → IvOk iv s → (mode, m) ∈ modeTable →
    PgpBlockOk mode s → SegOk mode seg s → CounterGiven mode csrc → EngineThere csrc s →
    cipherInit s.params.cipher key = some st0 →
    exec (.ctxNew mode csrc key iv seg) s = .next (answered
      { s with
        ctx := { valid := true
                 mode := some m
                 st := st0
                 iv := if iv.length = 0 then List.replicate s.bs 0 else iv
                 oldCipher := List.replicate s.bs 0
                 segmentSize := segAsked seg
                 count := if mode = 5 then 8 else if mode = 7 then s.bs else 0
                 csrc := csrc
                 prfMode := false
                 tmp := s.ctx.tmp }
        ports := { s.ports with init := s.ports.init + 1 } } 0 [])

/-- O21. `CTX_DESTROY` clears the whole context slot and leaves the generator slot; on an empty slot it is
refused and writes nothing (rule R121). -/
def Obligations.CtxDestroyClearsTheContext : Prop :=
  ∀ s : State,
    (s.ctx.valid = false → exec .ctxDestroy s = .next (answered s 0x00000201 [])) ∧
    (s.ctx.valid = true → exec .ctxDestroy s = .next (answered
      { s with
        ctx := { valid := false
                 mode := none
                 st := .zero
                 iv := List.replicate s.bs 0
                 oldCipher := List.replicate s.bs 0
                 segmentSize := 0
                 count := 0
                 csrc := .none
                 prfMode := false
                 tmp := List.replicate s.bs 0 } } 0 []))

/-- O22. `SET_PRF V` sets `prf_mode` to `V` in every mode and writes nothing else; on an empty slot it is refused
and writes nothing (rule R205). -/
def Obligations.SetPrfSetsTheFlag : Prop :=
  ∀ (s : State) (v : Bool),
    (s.ctx.valid = false → exec (.setPrf v) s = .next (answered s 0x00000201 [])) ∧
    (s.ctx.valid = true →
      exec (.setPrf v) s = .next (answered { s with ctx := { s.ctx with prfMode := v } } 0 []))

/-- O23. "when true, subsequent `Decrypt` calls fail immediately ... regardless of mode" (rule R132): with
`prf_mode` set every `DECRYPT`, of every length including zero, answers `DECRYPT_DISABLED` and writes no
state. -/
def Obligations.PrfModeDisablesDecrypt : Prop :=
  ∀ (s : State) (buf : Bytes), s.ctx.valid = true → s.ctx.prfMode = true →
    exec (.decrypt buf) s = .next (answered s 0x00002001 [])

/-- O24. `GET_IV` and `GET_MODE` answer the register and the mode number, or are refused on an empty slot, and
write nothing (rules R207, R208). -/
def Obligations.GetIvAndGetModeAnswerTheState : Prop :=
  ∀ s : State,
    (s.ctx.valid = false → exec .getIv s = .next (answered s 0x00000201 []) ∧
      exec .getMode s = .next (answered s 0x00000201 [])) ∧
    (s.ctx.valid = true → exec .getIv s = .next (answered s 0 s.ctx.iv)) ∧
    (∀ (k : Byte) (m : Mode), (k, m) ∈ modeTable → s.ctx.valid = true → s.ctx.mode = some m →
      exec .getMode s = .next (answered s 0 [k]))

/-- O25. `GET_BLOCK_SIZE` and `GET_KEY_SIZE` answer four bytes on every valid context and write nothing; where
the parameter has a 32-bit form they are that number, most significant byte first (rules R209, R210). For a
larger parameter the rules state no result and the model's is a free word (log entry 5), of which nothing is
said here. -/
def Obligations.SizesAreAnsweredInFourBytes : Prop :=
  ∀ s : State, s.ctx.valid = true →
    (∃ res : Bytes, exec .getBlockSize s = .next (answered s 0 res) ∧ res.length = 4 ∧
      (s.bs < 2 ^ 32 → beNat res = s.bs)) ∧
    (∃ res : Bytes, exec .getKeySize s = .next (answered s 0 res) ∧ res.length = 4 ∧
      (s.ks < 2 ^ 32 → beNat res = s.ks))

/-! ## ECB and CBC -/

/-- O26. `ENCRYPT.ECB` (rule R150): every block of `OUT` is `E` of the block of `IN`, one `ENC` request per
block, and no state is written. -/
def Obligations.EcbEncryptTransformsEveryBlock : Prop :=
  ∀ (s : State) (buf : Bytes), Ready false .ecb buf s → buf.length % s.bs = 0 →
    ∃ out : Bytes,
      exec (.encrypt buf) s = .next (answered
        { s with ports := { s.ports with enc := s.ports.enc + buf.length / s.bs } } 0 out) ∧
      out.length = buf.length ∧
      ∀ i, i < buf.length / s.bs → unitAt s.bs i out = cipherEnc s.ctx.st (unitAt s.bs i buf)

/-- O27. `DECRYPT.ECB` (rule R151): as `ENCRYPT.ECB` with `D` in place of `E`. -/
def Obligations.EcbDecryptTransformsEveryBlock : Prop :=
  ∀ (s : State) (buf : Bytes), Ready true .ecb buf s → buf.length % s.bs = 0 →
    ∃ out : Bytes,
      exec (.decrypt buf) s = .next (answered
        { s with ports := { s.ports with dec := s.ports.dec + buf.length / s.bs } } 0 out) ∧
      out.length = buf.length ∧
      ∀ i, i < buf.length / s.bs → unitAt s.bs i out = cipherDec s.ctx.st (unitAt s.bs i buf)

/-- O28. `ENCRYPT.CBC` (rule R153): `C_i = E(P_i xor C_(i-1))` with the IV before block 0; afterwards `iv` is
the last ciphertext block and `tmp` the last block given to `E`; nothing else of the context is written. -/
def Obligations.CbcEncryptChainsBlocks : Prop :=
  ∀ (s : State) (buf : Bytes), Ready false .cbc buf s → buf.length % s.bs = 0 →
    ∃ out : Bytes,
      exec (.encrypt buf) s = .next (answered
        { s with
          ctx := { s.ctx with
                   iv := unitAt s.bs (buf.length / s.bs - 1) out
                   tmp := xorBytes (unitAt s.bs (buf.length / s.bs - 1) buf)
                     (unitBefore s.bs (buf.length / s.bs - 1) s.ctx.iv out) }
          ports := { s.ports with enc := s.ports.enc + buf.length / s.bs } } 0 out) ∧
      out.length = buf.length ∧
      ∀ i, i < buf.length / s.bs →
        unitAt s.bs i out = cipherEnc s.ctx.st (xorBytes (unitAt s.bs i buf) (unitBefore s.bs i s.ctx.iv out))

/-- O29. `DECRYPT.CBC` (rule R154): `P_i = D(C_i) xor C_(i-1)` with the IV before block 0; afterwards `iv` and
`old_cipher` are the last ciphertext block and `tmp` is `D` of it. -/
def Obligations.CbcDecryptChainsBlocks : Prop :=
  ∀ (s : State) (buf : Bytes), Ready true .cbc buf s → buf.length % s.bs = 0 →
    ∃ out : Bytes,
      exec (.decrypt buf) s = .next (answered
        { s with
          ctx := { s.ctx with
                   iv := unitAt s.bs (buf.length / s.bs - 1) buf
                   oldCipher := unitAt s.bs (buf.length / s.bs - 1) buf
                   tmp := cipherDec s.ctx.st (unitAt s.bs (buf.length / s.bs - 1) buf) }
          ports := { s.ports with dec := s.ports.dec + buf.length / s.bs } } 0 out) ∧
      out.length = buf.length ∧
      ∀ i, i < buf.length / s.bs →
        unitAt s.bs i out = xorBytes (cipherDec s.ctx.st (unitAt s.bs i buf)) (unitBefore s.bs i s.ctx.iv buf)

/-- O30. The CBC bit-flip property (rule R155): two ciphertexts of equal length that agree in every block but
block `i` decrypt to plaintexts that agree in every block but `i` and `i+1`; block `i` differs, and block
`i+1` differs by exactly the difference of the two ciphertext blocks. -/
def Obligations.CbcErrorReachesTwoBlocks : Prop :=
  ∀ (s t t' : State) (c c' p p' : Bytes) (i : Nat), Ready true .cbc c s → c'.length = c.length →
    exec (.decrypt c) s = .next t → AnsweredOk s t p →
    exec (.decrypt c') s = .next t' → AnsweredOk s t' p' →
    i < c.length / s.bs → unitAt s.bs i c ≠ unitAt s.bs i c' →
    (∀ j, j ≠ i → unitAt s.bs j c = unitAt s.bs j c') →
    (∀ j, j < c.length / s.bs → j ≠ i → j ≠ i + 1 → unitAt s.bs j p = unitAt s.bs j p') ∧
    unitAt s.bs i p ≠ unitAt s.bs i p' ∧
    (i + 1 < c.length / s.bs →
      unitAt s.bs (i + 1) p'
        = xorBytes (unitAt s.bs (i + 1) p) (xorBytes (unitAt s.bs i c) (unitAt s.bs i c')))

/-! ## CFB and OFB -/

/-- O31. `ENCRYPT.CFB` (rules R160, R161, R163): segment `i` of `OUT` is segment `i` of `IN` xor the first `s`
bytes of `E` of the register, which holds the last `BS` bytes of the initial `iv` and the ciphertext so far;
`s = BS` (the full-block path) is no exception. -/
def Obligations.CfbEncryptFeedsBackItsOutput : Prop :=
  ∀ (s : State) (buf : Bytes), Ready false .cfb buf s → buf.length % (s.ctx.segmentSize / 8) = 0 →
    ∃ out : Bytes,
      exec (.encrypt buf) s = .next (answered
        { s with
          ctx := { s.ctx with
                   iv := lastBytes s.bs (s.ctx.iv ++ out)
                   tmp := cipherEnc s.ctx.st
                     (lastBytes s.bs (s.ctx.iv ++ out.take (buf.length - s.ctx.segmentSize / 8))) }
          ports := { s.ports with enc := s.ports.enc + buf.length / (s.ctx.segmentSize / 8) } } 0 out) ∧
      out.length = buf.length ∧
      ∀ i, i < buf.length / (s.ctx.segmentSize / 8) →
        unitAt (s.ctx.segmentSize / 8) i out
          = xorBytes (unitAt (s.ctx.segmentSize / 8) i buf)
              ((cipherEnc s.ctx.st
                  (lastBytes s.bs (s.ctx.iv ++ out.take (i * (s.ctx.segmentSize / 8))))).take
                (s.ctx.segmentSize / 8))

/-- O32. `DECRYPT.CFB` (rule R162): as `ENCRYPT.CFB`, with the consumed ciphertext fed back; it requests `ENC`,
never `DEC`. -/
def Obligations.CfbDecryptFeedsBackItsInput : Prop :=
  ∀ (s : State) (buf : Bytes), Ready true .cfb buf s → buf.length % (s.ctx.segmentSize / 8) = 0 →
    ∃ out : Bytes,
      exec (.decrypt buf) s = .next (answered
        { s with
          ctx := { s.ctx with
                   iv := lastBytes s.bs (s.ctx.iv ++ buf)
                   tmp := cipherEnc s.ctx.st
                     (lastBytes s.bs (s.ctx.iv ++ buf.take (buf.length - s.ctx.segmentSize / 8))) }
          ports := { s.ports with enc := s.ports.enc + buf.length / (s.ctx.segmentSize / 8) } } 0 out) ∧
      out.length = buf.length ∧
      ∀ i, i < buf.length / (s.ctx.segmentSize / 8) →
        unitAt (s.ctx.segmentSize / 8) i out
          = xorBytes (unitAt (s.ctx.segmentSize / 8) i buf)
              ((cipherEnc s.ctx.st
                  (lastBytes s.bs (s.ctx.iv ++ buf.take (i * (s.ctx.segmentSize / 8))))).take
                (s.ctx.segmentSize / 8))

/-- O33. OFB, both directions (rules R170, R171): block `k` of `OUT` is block `k` of `IN` xor `E^(k+1)(iv)`,
and `iv` ends as `E^N(iv)`; `ENC` only. -/
def Obligations.OfbXorsTheIteratedKeystream : Prop :=
  ∀ (dec : Bool) (s : State) (buf : Bytes), Ready dec .ofb buf s → buf.length % s.bs = 0 →
    ∃ out : Bytes,
      exec (crypt dec buf) s = .next (answered
        { s with
          ctx := { s.ctx with
                   iv := (cipherEnc s.ctx.st)^[buf.length / s.bs] s.ctx.iv
                   tmp := (cipherEnc s.ctx.st)^[buf.length / s.bs] s.ctx.iv }
          ports := { s.ports with enc := s.ports.enc + buf.length / s.bs } } 0 out) ∧
      out.length = buf.length ∧
      ∀ k, k < buf.length / s.bs →
        unitAt s.bs k out = xorBytes (unitAt s.bs k buf) ((cipherEnc s.ctx.st)^[k + 1] s.ctx.iv)

/-- O34. "OFB keystream is independent of plaintext: `OFB_encrypt(IV, m1) XOR m1 == OFB_encrypt(IV, m2) XOR m2`
for equal-length `m1, m2` under the same IV" (rule R172), and so is the register it leaves. -/
def Obligations.OfbKeystreamIgnoresTheData : Prop :=
  ∀ (s t1 t2 : State) (m1 m2 o1 o2 : Bytes), SlotsInv s → s.ctx.valid = true → s.ctx.mode = some .ofb →
    m1.length = m2.length →
    exec (.encrypt m1) s = .next t1 → AnsweredOk s t1 o1 →
    exec (.encrypt m2) s = .next t2 → AnsweredOk s t2 o2 →
    xorBytes o1 m1 = xorBytes o2 m2 ∧ t1.ctx = t2.ctx

/-! ## PGP and SYNC -/

/-- O35. One byte in PGP mode (rules R176, R177, R178): an exhausted register (`count = BS`) is first refilled
(`old_cipher` takes the register, the register its encryption, `count` 0); the output is the register byte at
`count` xor the input; the register keeps the ciphertext byte, in both directions; `count` advances. -/
def Obligations.PgpProcessesOneByte : Prop :=
  ∀ (dec : Bool) (s : State) (b : Byte), Ready dec .pgp [b] s →
    (s.ctx.count < s.bs →
      exec (crypt dec [b]) s = .next (answered
        { s with
          ctx := { s.ctx with
                   iv := s.ctx.iv.set s.ctx.count
                     (if dec = true then b else byteAt s.ctx.iv s.ctx.count ^^^ b)
                   count := s.ctx.count + 1 } } 0 [byteAt s.ctx.iv s.ctx.count ^^^ b])) ∧
    (s.ctx.count = s.bs →
      exec (crypt dec [b]) s = .next (answered
        { s with
          ctx := { s.ctx with
                   iv := (cipherEnc s.ctx.st s.ctx.iv).set 0
                     (if dec = true then b else byteAt (cipherEnc s.ctx.st s.ctx.iv) 0 ^^^ b)
                   oldCipher := s.ctx.iv
                   count := 1 }
          ports := { s.ports with enc := s.ports.enc + 1 } } 0
        [byteAt (cipherEnc s.ctx.st s.ctx.iv) 0 ^^^ b]))

/-- O36. `SYNC` (rule R181): the two refusals, and on a PGP context the re-alignment: nothing when
`count = PGP_FULL`, else `iv <- old_cipher[c..BS) ‖ iv[0..c)` and `count <- PGP_FULL`; nothing else is
written. -/
def Obligations.SyncRealignsTheRegister : Prop :=
  ∀ s : State, SlotsInv s →
    (s.ctx.valid = false → exec .sync s = .next (answered s 0x00000201 [])) ∧
    (s.ctx.valid = true → s.ctx.mode ≠ some .pgp → exec .sync s = .next (answered s 0x00002101 [])) ∧
    (∀ full : Nat, (s.params.pgpFull = .eight → full = 8) → (s.params.pgpFull = .blockSize → full = s.bs) →
      s.ctx.valid = true → s.ctx.mode = some .pgp →
      (s.ctx.count = full → exec .sync s = .next (answered s 0 [])) ∧
      (s.ctx.count ≠ full →
        exec .sync s = .next (answered
          { s with
            ctx := { s.ctx with
                     iv := s.ctx.oldCipher.drop s.ctx.count ++ s.ctx.iv.take s.ctx.count
                     count := full } } 0 [])))

/-- O37. What `SYNC` is for (rule R182): after a message in PGP mode, encrypted or decrypted, from any `count`,
`SYNC` leaves in the register the last `BS` bytes of the ciphertext history (`old_cipher`, the bytes of the
register in use, then the ciphertext of the message, which for `DECRYPT` is its input) and `count = PGP_FULL`, so
that with `PGP_FULL = BS` the register is exhausted. The one case not covered is `count = PGP_FULL` with
`PGP_FULL ≠ BS`, where `SYNC` changes nothing (O36). -/
def Obligations.SyncHoldsTheLastCiphertext : Prop :=
  ∀ (dec : Bool) (s t : State) (m out : Bytes) (full : Nat), Ready dec .pgp m s →
    (s.params.pgpFull = .eight → full = 8) → (s.params.pgpFull = .blockSize → full = s.bs) →
    exec (crypt dec m) s = .next t → AnsweredOk s t out → (t.ctx.count = full → full = s.bs) →
    ∃ u : State, exec .sync t = .next u ∧ AnsweredOk t u [] ∧ u.ctx.count = full ∧
      u.ctx.iv = lastBytes s.bs (s.ctx.oldCipher ++ pgpHistory s (if dec = true then m else out))

/-! ## CTR -/

/-- O38. One byte in CTR mode, both directions, where it completes (rules R190, R191 and the good refills of
R193, R194, R195): with keystream at hand; and with the register exhausted, refilled by the shortcut protocol
or the generic one on the engine, or from a good answer of the external source. That an answer of class 0 is `OK` whatever its cause byte is the
model's reading of rule R67, log entry 6. -/
def Obligations.CtrProcessesOneByte : Prop :=
  ∀ (dec : Bool) (s : State) (b : Byte), Ready dec .ctr [b] s →
    (s.ctx.count < s.bs →
      exec (crypt dec [b]) s = .next (answered
        { s with ctx := { s.ctx with count := s.ctx.count + 1 } } 0 [b ^^^ byteAt s.ctx.iv s.ctx.count])) ∧
    (s.ctx.count = s.bs → s.ctx.csrc = .engine → s.gen.valid = true → genBlocked s.gen = false →
      genWidth s.gen = s.bs →
      exec (crypt dec [b]) s = .next (answered
        { s with
          ctx := { s.ctx with iv := cipherEnc s.ctx.st s.gen.buf, count := 1 }
          gen := genIncrement s.gen
          ports := { s.ports with enc := s.ports.enc + 1 } } 0
        [b ^^^ byteAt (cipherEnc s.ctx.st s.gen.buf) 0])) ∧
    (∀ (r : CounterReply) (rest : List CounterReply), s.ctx.count = s.bs → s.ctx.csrc = .external →
      s.replies = r :: rest → r.cls = 0 → r.isBytes = true → r.data.length = s.bs →
      exec (crypt dec [b]) s = .next (answered
        { s with
          ctx := { s.ctx with iv := cipherEnc s.ctx.st r.data, count := 1 }
          replies := rest
          ports := { s.ports with enc := s.ports.enc + 1, counter := s.ports.counter + 1 } } 0
        [b ^^^ byteAt (cipherEnc s.ctx.st r.data) 0]))

/-- O39. A refused refill at the first byte of a CTR command (rules R192 to R195, R249): engine gone, counter
wrapped, wrong width (the shortcut leaves the generator, the generic protocol has advanced it), the external
source's own failure passed on unchanged, an answer that is not `BS` bytes of byte data; and the wait while
there is no answer. That an answer of class 0 is `OK` whatever its cause byte is the model's
reading of rule R67, log entry 6. -/
def Obligations.CtrRefillRefusesAndWaits : Prop :=
  ∀ (dec : Bool) (s : State) (buf : Bytes), Ready dec .ctr buf s → s.ctx.count = s.bs →
    (s.ctx.csrc = .engine → s.gen.valid = false →
      exec (crypt dec buf) s = .next (answered s 0x00001701 [])) ∧
    (s.ctx.csrc = .engine → s.gen.valid = true → s.gen.carry = true → s.gen.allowWraparound = false →
      exec (crypt dec buf) s = .next (answered s 0x00000103 [])) ∧
    (s.ctx.csrc = .engine → s.gen.valid = true → genBlocked s.gen = false → genWidth s.gen ≠ s.bs →
      s.gen.shortcutEnabled = true →
      exec (crypt dec buf) s = .next (answered s 0x00001701 [])) ∧
    (s.ctx.csrc = .engine → s.gen.valid = true → genBlocked s.gen = false → genWidth s.gen ≠ s.bs →
      s.gen.shortcutEnabled = false →
      exec (crypt dec buf) s = .next (answered { s with gen := genIncrement s.gen } 0x00001701 [])) ∧
    (∀ (r : CounterReply) (rest : List CounterReply), s.ctx.csrc = .external → s.replies = r :: rest →
      r.cls ≠ 0 →
      exec (crypt dec buf) s = .next (answered
        { s with replies := rest, ports := { s.ports with counter := s.ports.counter + 1 } }
        (BitVec.ofNat 32 (r.cause.toNat * 256 + r.cls.toNat)) [])) ∧
    (∀ (r : CounterReply) (rest : List CounterReply), s.ctx.csrc = .external → s.replies = r :: rest →
      r.cls = 0 → (r.isBytes = false ∨ r.data.length ≠ s.bs) →
      exec (crypt dec buf) s = .next (answered
        { s with replies := rest, ports := { s.ports with counter := s.ports.counter + 1 } }
        0x00001701 [])) ∧
    (s.ctx.csrc = .external → s.replies = [] →
      exec (crypt dec buf) s = .next
        { s with
          stage := .refillWait
          pos := 0
          inBuf := buf
          outBuf := []
          ports := { s.ports with counter := s.ports.counter + 1 } })

/-- O40. The wait for the external source is transparent (rules R67, R138, R195): a CTR command that is waiting
when the answers `rs` arrive goes on to exactly the state it reaches when they were there from the start; the
command port is not looked at meanwhile. -/
def Obligations.WaitingIsTransparent : Prop :=
  ∀ (dec : Bool) (buf : Bytes) (s w : State) (rs : List CounterReply), Ready dec .ctr buf s →
    exec (crypt dec buf) s = .next w → w.stage = .refillWait → rs ≠ [] →
    exec (crypt dec buf) { s with replies := s.replies ++ rs } = step { w with replies := rs }

/-- O41. "Decrypt in CTR mode is byte-for-byte identical to encrypt" (rule R191), and so it is in OFB mode
(rule R171), once the `prf_mode` check has passed; it never requests `DEC`. -/
def Obligations.CtrAndOfbDecryptIsEncrypt : Prop :=
  ∀ (s : State) (buf : Bytes), s.ctx.prfMode = false →
    (s.ctx.mode = some .ctr ∨ s.ctx.mode = some .ofb) →
    exec (.decrypt buf) s = exec (.encrypt buf) s ∧
    (∀ t, exec (.decrypt buf) s = .next t → t.ports.dec = s.ports.dec)

/-- O42. "Shortcut and generic protocols give the same output and the same end state for the same generator
whenever `W = BS`" (rule R197, item 4). -/
def Obligations.ShortcutAndGenericProtocolsAgree : Prop :=
  ∀ (dec : Bool) (buf : Bytes) (s t : State), SlotsInv s → genWidth s.gen = s.bs →
    exec (crypt dec buf) { s with gen := { s.gen with shortcutEnabled := true } } = .next t →
    exec (crypt dec buf) { s with gen := { s.gen with shortcutEnabled := false } }
      = .next { t with gen := { t.gen with shortcutEnabled := false } }

/-- O43. The keystream of CTR on the engine (rule R197, items 1 and 3): from an exhausted register, byte `j` is
xored with byte `j mod BS` of `E(prefix ‖ (v_0 + j div BS) ‖ suffix)`, `v_0` being the value at the start; the
command completes as long as the counter is not asked for a value past its wrap or may wrap, and leaves the
value advanced by the number of refills. -/
def Obligations.CtrKeystreamEncryptsTheCounter : Prop :=
  ∀ (dec : Bool) (s : State) (buf : Bytes), Ready dec .ctr buf s → s.ctx.count = s.bs →
    s.ctx.csrc = .engine → s.gen.valid = true → genBlocked s.gen = false → genWidth s.gen = s.bs →
    (s.gen.allowWraparound = true ∨
      valueNat s.gen.endianness (genValue s.gen) + (buf.length + s.bs - 1) / s.bs ≤ 256 ^ s.gen.n) →
    ∃ (t : State) (out : Bytes), exec (crypt dec buf) s = .next t ∧ AnsweredOk s t out ∧
      out.length = buf.length ∧
      (∀ j, j < buf.length →
        byteAt out j = byteAt buf j ^^^
          byteAt (cipherEnc s.ctx.st
            (counterBlock s.gen (valueNat s.gen.endianness (genValue s.gen) + j / s.bs))) (j % s.bs)) ∧
      genValue t.gen = encodeValue s.gen.endianness s.gen.n
        (valueNat s.gen.endianness (genValue s.gen) + (buf.length + s.bs - 1) / s.bs) ∧
      genPrefix t.gen = genPrefix s.gen ∧ genSuffix t.gen = genSuffix s.gen ∧
      t.ctx.count = (buf.length + s.bs - 1) % s.bs + 1 ∧ t.ctx.oldCipher = s.ctx.oldCipher

/-! ## All modes -/

/-- O44. "Zero-length input always yields zero-length output without touching state" (rule R134), in every
mode; with `prf_mode` clear for `DECRYPT`. -/
def Obligations.EmptyBufferTouchesNothing : Prop :=
  ∀ s : State, s.ctx.valid = true →
    exec (.encrypt []) s = .next (answered s 0 []) ∧
    (s.ctx.prfMode = false → exec (.decrypt []) s = .next (answered s 0 []))

/-- O45. ROUND TRIP (rule R142): in every mode, if `ENCRYPT m` succeeds with result `c`, then `DECRYPT c` from
the same state succeeds with result `m`; the two runs end with equal `iv` and `count`, equal generators, and,
but in CBC mode, equal `old_cipher`. -/
def Obligations.DecryptInvertsEncrypt : Prop :=
  ∀ (s t : State) (m c : Bytes), SlotsInv s → s.ctx.valid = true → s.ctx.prfMode = false →
    exec (.encrypt m) s = .next t → AnsweredOk s t c →
    ∃ t' : State, exec (.decrypt c) s = .next t' ∧ AnsweredOk s t' m ∧
      t'.ctx.iv = t.ctx.iv ∧ t'.ctx.count = t.ctx.count ∧ t'.gen = t.gen ∧ t'.replies = t.replies ∧
      (s.ctx.mode ≠ some .cbc → t'.ctx.oldCipher = t.ctx.oldCipher)

/-- O46. SPLITTING (rules R142, R179 item 1): in every mode and both directions, processing `a` and then `b`
with two commands that succeed gives the same output and the same end state as processing `a ‖ b` with one,
the working buffer of which can be allocated. -/
def Obligations.SplitMessageGivesTheSameResult : Prop :=
  ∀ (dec : Bool) (s t u : State) (a b x y : Bytes), SlotsInv s →
    (∀ cap, s.params.bufCap = some cap → (a ++ b).length ≤ cap) →
    exec (crypt dec a) s = .next t → AnsweredOk s t x →
    exec (crypt dec b) t = .next u → AnsweredOk t u y →
    exec (crypt dec (a ++ b)) s
      = .next { u with dataOut := s.dataOut ++ [{ status := 0, result := x ++ y }] }

/-- O47. The number of requests of a PGP or CTR command on the block-cipher port is the number of `j` below
`len` with `(c0 + j) mod BS = 0`, all `ENC`; on the counter-source port it is the same number for an external
source and none otherwise (rule R285). -/
def Obligations.StreamModesRequestOncePerRefill : Prop :=
  ∀ (dec : Bool) (s t : State) (buf out : Bytes) (m : Mode), Ready dec m buf s → (m = .pgp ∨ m = .ctr) →
    exec (crypt dec buf) s = .next t → AnsweredOk s t out →
    t.ports.enc = s.ports.enc + refillCount s.bs s.ctx.count buf.length ∧
    t.ports.dec = s.ports.dec ∧ t.ports.init = s.ports.init ∧
    t.ports.counter = s.ports.counter +
      (if s.ctx.csrc = .external then refillCount s.bs s.ctx.count buf.length else 0)

/-- O48. Which command uses which port (rules R66, R67, R285): `ENC` is requested only by `ENCRYPT` and by
`DECRYPT` outside ECB and CBC mode, `DEC` only by `DECRYPT` in ECB and CBC mode, `Init` only by `CTX_NEW` and once,
the counter source only by `ENCRYPT` and `DECRYPT` on a CTR context with an external source. -/
def Obligations.PortsAreUsedOnlyAsTheRulesSay : Prop :=
  ∀ (i : Instr) (s t : State), exec i s = .next t →
    (t.ports.enc ≠ s.ports.enc →
      (∃ buf, i = .encrypt buf) ∨
      ((∃ buf, i = .decrypt buf) ∧ s.ctx.mode ≠ some .ecb ∧ s.ctx.mode ≠ some .cbc)) ∧
    (t.ports.dec ≠ s.ports.dec →
      (∃ buf, i = .decrypt buf) ∧ (s.ctx.mode = some .ecb ∨ s.ctx.mode = some .cbc)) ∧
    (t.ports.init ≠ s.ports.init →
      (∃ mode csrc key iv seg, i = .ctxNew mode csrc key iv seg) ∧ t.ports.init = s.ports.init + 1) ∧
    (t.ports.counter ≠ s.ports.counter ∨ t.replies ≠ s.replies →
      isDataCommand i = true ∧ s.ctx.mode = some .ctr ∧ s.ctx.csrc = .external)

/-! ## The counter generator -/

/-- O49. `GEN_NEW_BE` and `GEN_NEW_LE` (rules R215, R216): the two refusals, on which nothing is written, and
the generator they build, which differ in `endianness` alone. -/
def Obligations.GenNewBuildsTheGenerator : Prop :=
  ∀ (s : State) (aw ds : Bool) (pfx sfx initial : Bytes),
    (s.gen.valid = true →
      exec (.genNewBe aw ds pfx sfx initial) s = .next (answered s 0x00000401 []) ∧
      exec (.genNewLe aw ds pfx sfx initial) s = .next (answered s 0x00000401 [])) ∧
    (s.gen.valid = false →
      (initial.length < 1 ∨ 65535 < initial.length ∨ 65535 < pfx.length ∨ 65535 < sfx.length) →
      exec (.genNewBe aw ds pfx sfx initial) s = .next (answered s 0x00001801 []) ∧
      exec (.genNewLe aw ds pfx sfx initial) s = .next (answered s 0x00001801 [])) ∧
    (s.gen.valid = false → 1 ≤ initial.length → initial.length ≤ 65535 → pfx.length ≤ 65535 →
      sfx.length ≤ 65535 →
      exec (.genNewBe aw ds pfx sfx initial) s = .next (answered
        { s with
          gen := { valid := true
                   buf := pfx ++ initial ++ sfx
                   p := pfx.length
                   n := initial.length
                   q := sfx.length
                   endianness := .big
                   carry := false
                   allowWraparound := aw
                   shortcutEnabled := !ds } } 0 []) ∧
      exec (.genNewLe aw ds pfx sfx initial) s = .next (answered
        { s with
          gen := { valid := true
                   buf := pfx ++ initial ++ sfx
                   p := pfx.length
                   n := initial.length
                   q := sfx.length
                   endianness := .little
                   carry := false
                   allowWraparound := aw
                   shortcutEnabled := !ds } } 0 []))

/-- O50. `GEN_INVOKE` (rules R220, R221): the two refusals, on which nothing is written; else the snapshot from
before the increment, and the value advanced by one modulo `256^n` in the generator's byte order, `carry` set
exactly when every value byte was `0xFF`, `prefix` and `suffix` untouched. -/
def Obligations.GenInvokeReturnsThenIncrements : Prop :=
  ∀ s : State, SlotsInv s →
    (s.gen.valid = false → exec .genInvoke s = .next (answered s 0x00000301 [])) ∧
    (s.gen.valid = true → s.gen.carry = true → s.gen.allowWraparound = false →
      exec .genInvoke s = .next (answered s 0x00000103 [])) ∧
    (s.gen.valid = true → (s.gen.carry = false ∨ s.gen.allowWraparound = true) →
      ∃ (v : Bytes) (c : Bool),
        exec .genInvoke s = .next (answered
          { s with gen := { s.gen with buf := genPrefix s.gen ++ v ++ genSuffix s.gen, carry := c } } 0
          s.gen.buf) ∧
        v.length = s.gen.n ∧
        valueNat s.gen.endianness v = (valueNat s.gen.endianness (genValue s.gen) + 1) % 256 ^ s.gen.n ∧
        (c = true ↔ ∀ b ∈ genValue s.gen, b = 0xFF) ∧
        (c = true ↔ valueNat s.gen.endianness (genValue s.gen) = 256 ^ s.gen.n - 1))

/-- O51. `GEN_NEXT_VALUE` (rule R224): `n` bytes that read, most significant first, as the integer the next
successful invocation will return: `value` itself for a big-endian generator, `value` reversed for a
little-endian one; nothing is written, and `carry` does not matter. -/
def Obligations.GenNextValueAnswersTheInteger : Prop :=
  ∀ s : State, SlotsInv s →
    (s.gen.valid = false → exec .genNextValue s = .next (answered s 0x00000301 [])) ∧
    (s.gen.valid = true →
      ∃ res : Bytes, exec .genNextValue s = .next (answered s 0 res) ∧ res.length = s.gen.n ∧
        beNat res = valueNat s.gen.endianness (genValue s.gen) ∧
        (s.gen.endianness = .big → res = genValue s.gen) ∧
        (s.gen.endianness = .little → res = (genValue s.gen).reverse))

/-- O52. `GEN_GET_CARRY` answers the flag as one byte and writes nothing (rule R225); `GEN_DESTROY` clears the
whole slot and leaves the context (rule R226); both are refused on an empty slot. -/
def Obligations.GenGetCarryAndGenDestroyComplete : Prop :=
  ∀ s : State,
    (s.gen.valid = false → exec .genGetCarry s = .next (answered s 0x00000301 []) ∧
      exec .genDestroy s = .next (answered s 0x00000301 [])) ∧
    (s.gen.valid = true →
      exec .genGetCarry s = .next (answered s 0 [if s.gen.carry = true then 0x01 else 0x00]) ∧
      exec .genDestroy s = .next (answered
        { s with
          gen := { valid := false
                   buf := []
                   p := 0
                   n := 0
                   q := 0
                   endianness := .big
                   carry := false
                   allowWraparound := false
                   shortcutEnabled := false } } 0 []))

/-- O53. The sequence a generator produces (rule R222): `k` invocations answer, for `j < k`,
`prefix ‖ enc((v_0 + j) mod 256^n) ‖ suffix`, and `COUNTER_WRAPPED` from invocation `256^n - v_0` on where
wraparound is not allowed. -/
def Obligations.InvocationsCountUp : Prop :=
  ∀ (s : State) (k : Nat), SlotsInv s → s.gen.valid = true → genBlocked s.gen = false →
    ∃ t : State, invokeTimes k s = some t ∧ t.ctx = s.ctx ∧
      t.dataOut = s.dataOut ++ (List.range k).map fun j =>
        if s.gen.allowWraparound = true ∨ valueNat s.gen.endianness (genValue s.gen) + j < 256 ^ s.gen.n then
          { status := 0
            result := counterBlock s.gen (valueNat s.gen.endianness (genValue s.gen) + j) }
        else { status := 0x00000103, result := [] }

/-- O54. `Exhausted-and-blocked` is terminal (rule R48): its value is zero, and no command but `GEN_DESTROY`
changes the generator. -/
def Obligations.ExhaustedGeneratorStaysExhausted : Prop :=
  ∀ (i : Instr) (s t : State), SlotsInv s → s.gen.valid = true → s.gen.carry = true →
    s.gen.allowWraparound = false → exec i s = .next t → i ≠ .genDestroy →
    t.gen = s.gen ∧ genValue t.gen = List.replicate s.gen.n 0

/-! ## Whole-machine rules -/

/-- O55. "mode is immutable for the context's lifetime" (rules R21, R30), and so are the cipher state, the
segment size and the counter source (rules R23, R26, R28): a step from a valid context either leaves them or
is `CTX_DESTROY`. -/
def Obligations.ContextIdentityIsImmutable : Prop :=
  ∀ s t : State, s.ctx.valid = true → step s = .next t →
    (t.ctx.valid = true ∧ t.ctx.mode = s.ctx.mode ∧ t.ctx.st = s.ctx.st ∧
      t.ctx.segmentSize = s.ctx.segmentSize ∧ t.ctx.csrc = s.ctx.csrc) ∨
    (t.ctx.valid = false ∧ NextCommand s .ctxDestroy)

/-- O56. `prf_mode` is "written by `SET_PRF` only" (rule R29) during a context's life: a step that changes it is
`SET_PRF` of the new value, or destroys the context. -/
def Obligations.PrfModeChangesOnlyBySetPrf : Prop :=
  ∀ s t : State, s.Inv → step s = .next t → t.ctx.prfMode ≠ s.ctx.prfMode →
    NextCommand s (.setPrf t.ctx.prfMode) ∨ (t.ctx.prfMode = false ∧ NextCommand s .ctxDestroy)

/-- O57. The two slots are separate objects (rules R51, R77, R121, R226, R227): a generator command writes
nothing of the context, a context command but `ENCRYPT` and `DECRYPT` nothing of the generator, and those two
write the generator only from a CTR context on the engine; no command writes a parameter, takes from the
command port or takes back a response. -/
def Obligations.SlotsAreSeparate : Prop :=
  ∀ (i : Instr) (s t : State), exec i s = .next t →
    (isGeneratorCommand i = true → t.ctx = s.ctx) ∧
    (isGeneratorCommand i = false → t.gen ≠ s.gen →
      isDataCommand i = true ∧ s.ctx.mode = some .ctr ∧ s.ctx.csrc ≠ .external) ∧
    t.params = s.params ∧ t.cmdPort = s.cmdPort ∧ s.dataOut <+: t.dataOut

/-- O58. A whole message in PGP mode, both directions (rules R176, R177, R178), with `c0` the `count` before it:
byte `j` of `OUT` is byte `j` of `IN` xor byte `(c0 + j) mod BS` of the keystream of block `(c0 + j) div BS`,
which is the register as found for block 0 and `E` of the block of ciphertext before it for the others.
Afterwards the register holds the ciphertext of the current block followed by the keystream not yet used,
`old_cipher` the block before it if a refill was made, and one `ENC` was requested per refill. -/
def Obligations.PgpProcessesAMessage : Prop :=
  ∀ (dec : Bool) (s : State) (buf : Bytes), Ready dec .pgp buf s →
    ∃ out : Bytes, out.length = buf.length ∧
      (∀ j, j < buf.length →
        byteAt out j = byteAt buf j ^^^
          byteAt (pgpKeyBlock s (if dec = true then buf else out) ((s.ctx.count + j) / s.bs))
            ((s.ctx.count + j) % s.bs)) ∧
      ∀ k c : Nat, k = (s.ctx.count + buf.length - 1) / s.bs → c = s.ctx.count + buf.length - k * s.bs →
        exec (crypt dec buf) s = .next (answered
          { s with
            ctx := { s.ctx with
                     iv := unitAt s.bs k (pgpHistory s (if dec = true then buf else out))
                       ++ (pgpKeyBlock s (if dec = true then buf else out) k).drop c
                     oldCipher :=
                       if k = 0 then s.ctx.oldCipher
                       else unitAt s.bs (k - 1) (pgpHistory s (if dec = true then buf else out))
                     count := c }
            ports := { s.ports with enc := s.ports.enc + k } } 0 out)

/-- O59. A whole message in CTR mode on an external source that answers well, from an exhausted register (rules
R190, R195): byte `j` of `OUT` is byte `j` of `IN` xor byte `j mod BS` of `E` of answer `j div BS`; one answer
is taken and one `ENC` requested per block begun, whether or not the answers differ, and `iv` holds the last
keystream block. That an answer of class 0 is `OK` whatever its cause byte is the model's
reading of rule R67, log entry 6. -/
def Obligations.CtrOnAnExternalSourceProcessesAMessage : Prop :=
  ∀ (dec : Bool) (s : State) (buf : Bytes) (rs rest : List CounterReply), Ready dec .ctr buf s →
    s.ctx.count = s.bs → s.ctx.csrc = .external → s.replies = rs ++ rest →
    rs.length = (buf.length + s.bs - 1) / s.bs →
    (∀ r ∈ rs, r.cls = 0 ∧ r.isBytes = true ∧ r.data.length = s.bs) →
    ∃ out : Bytes,
      exec (crypt dec buf) s = .next (answered
        { s with
          ctx := { s.ctx with
                   iv := cipherEnc s.ctx.st ((rs.map CounterReply.data).getD (rs.length - 1) [])
                   count := (buf.length + s.bs - 1) % s.bs + 1 }
          replies := rest
          ports := { s.ports with
                     enc := s.ports.enc + rs.length
                     counter := s.ports.counter + rs.length } } 0 out) ∧
      out.length = buf.length ∧
      ∀ j, j < buf.length →
        byteAt out j = byteAt buf j ^^^
          byteAt (cipherEnc s.ctx.st ((rs.map CounterReply.data).getD (j / s.bs) [])) (j % s.bs)
end

