-- ==== Sys2Proof/Laws/Bytes.lean ====
section
/-! SUPPORT. Lengths and algebra of byte strings: the XOR datapath, the cutting of a buffer into units, the
addressing forms of the registers. -/

namespace Sys2Proof.Machine

@[simp] theorem zeros_length (n : Nat) : (zeros n).length = n := List.length_replicate

@[simp] theorem zeros_zero : zeros 0 = [] := rfl

@[simp] theorem xorBytes_length (a b : Bytes) : (xorBytes a b).length = min a.length b.length :=
  List.length_zipWith

theorem xorBytes_comm (a b : Bytes) : xorBytes a b = xorBytes b a := by
  simp only [xorBytes]
  rw [List.zipWith_comm]
  congr 1
  funext x y
  exact BitVec.xor_comm _ _

/-- `(P xor k) xor k = P`, with at least as much keystream as data. -/
theorem xorBytes_cancel (a k : Bytes) (h : a.length ≤ k.length) : xorBytes (xorBytes a k) k = a := by
  induction a generalizing k with
  | nil => rfl
  | cons x a ih =>
    cases k with
    | nil => simp at h
    | cons y k =>
      have hr := ih k (by simpa using h)
      simp only [xorBytes] at hr ⊢
      simp only [List.zipWith_cons_cons, hr, BitVec.xor_assoc, BitVec.xor_self, BitVec.xor_zero]

theorem xorBytes_append (a a' b b' : Bytes) (h : a.length = b.length) :
    xorBytes (a ++ a') (b ++ b') = xorBytes a b ++ xorBytes a' b' :=
  List.zipWith_append h

@[simp] theorem takeUnits_length (u k : Nat) (b : Bytes) : (takeUnits u k b).length = k := by
  induction k generalizing b with
  | zero => rfl
  | succ k ih => simp [takeUnits, ih]

/-- The units of a buffer of whole units put together again are the buffer. -/
theorem takeUnits_flatten (u k : Nat) (b : Bytes) (h : b.length = k * u) :
    (takeUnits u k b).flatten = b := by
  induction k generalizing b with
  | zero => simp at h; simp [takeUnits, h]
  | succ k ih =>
    have hd : (b.drop u).length = k * u := by
      rw [List.length_drop, h, Nat.succ_mul]; omega
    simp [takeUnits, ih _ hd]

theorem units_flatten (u : Nat) (b : Bytes) (h : b.length % u = 0) : (units u b).flatten = b :=
  takeUnits_flatten u _ b (by
    have := Nat.div_add_mod b.length u
    rw [h] at this
    rw [Nat.mul_comm]
    omega)

/-- Every unit of a buffer of whole units has `u` bytes. -/
theorem takeUnits_mem_length (u k : Nat) (b : Bytes) (h : k * u ≤ b.length) :
    ∀ x ∈ takeUnits u k b, x.length = u := by
  induction k generalizing b with
  | zero => simp [takeUnits]
  | succ k ih =>
    rw [Nat.succ_mul] at h
    have hd : k * u ≤ (b.drop u).length := by rw [List.length_drop]; omega
    intro x hx
    rcases List.mem_cons.mp hx with rfl | hx
    · rw [List.length_take]; omega
    · exact ih _ hd x hx

theorem units_mem_length (u : Nat) (b : Bytes) : ∀ x ∈ units u b, x.length = u :=
  takeUnits_mem_length u _ b (Nat.div_mul_le_self _ _)

/-- The `i`-th unit is the slice at offset `i * u`. -/
theorem takeUnits_getElem? (u k i : Nat) (b : Bytes) (h : i < k) :
    (takeUnits u k b)[i]? = some ((b.drop (i * u)).take u) := by
  induction k generalizing i b with
  | zero => omega
  | succ k ih =>
    cases i with
    | zero => simp [takeUnits]
    | succ i =>
      simp only [takeUnits, List.getElem?_cons_succ]
      rw [ih _ _ (by omega), List.drop_drop, Nat.succ_mul, Nat.add_comm]

/-- Cutting a concatenation at a unit boundary cuts its parts. -/
theorem takeUnits_append (u k l : Nat) (a b : Bytes) (h : a.length = k * u) :
    takeUnits u (k + l) (a ++ b) = takeUnits u k a ++ takeUnits u l b := by
  induction k generalizing a with
  | zero =>
    have : a = [] := List.length_eq_zero_iff.mp (by simpa using h)
    simp [this, takeUnits]
  | succ k ih =>
    rw [Nat.succ_mul] at h
    have hle : u ≤ a.length := by omega
    have hd : (a.drop u).length = k * u := by rw [List.length_drop]; omega
    rw [Nat.succ_add]
    simp only [takeUnits, List.cons_append]
    rw [List.take_append_of_le_length hle, List.drop_append_of_le_length hle, ih _ hd]

theorem units_append (u : Nat) (a b : Bytes) (hu : 0 < u) (ha : a.length % u = 0) :
    units u (a ++ b) = units u a ++ units u b := by
  obtain ⟨k, hk⟩ := Nat.dvd_of_mod_eq_zero ha
  have hdiv : (a ++ b).length / u = a.length / u + b.length / u := by
    rw [List.length_append, hk, Nat.mul_add_div hu, Nat.mul_div_cancel_left _ hu]
  have hka : a.length / u = k := by rw [hk, Nat.mul_div_cancel_left _ hu]
  unfold units
  rw [hdiv, hka]
  exact takeUnits_append u k _ a b (by rw [hk, Nat.mul_comm])

@[simp] theorem slice_length (b : Bytes) (i j : Nat) : (slice b i j).length = min j b.length - i := by
  simp [slice]

/-- The shift formula alone is the segment packer's feedback: at `s = BS` both paths agree (rule R163). -/
theorem cfbFeed_eq_shift (bs : Nat) (iv cseg : Bytes) (h : iv.length = bs) :
    cfbFeed bs iv cseg = iv.drop cseg.length ++ cseg := by
  unfold cfbFeed segmentPath
  split_ifs with hs
  · rw [hs, ← h, List.drop_length, List.nil_append]
  · rfl

theorem cfbFeed_length (bs : Nat) (iv cseg : Bytes) (h : iv.length = bs) (hs : cseg.length ≤ bs) :
    (cfbFeed bs iv cseg).length = bs := by
  rw [cfbFeed_eq_shift bs iv cseg h, List.length_append, List.length_drop, h]
  omega

theorem byteAt_of_lt (r : Bytes) (i : Nat) (h : i < r.length) : byteAt r i = r[i] := by
  simp [byteAt, List.getD_eq_getElem?_getD, h]

end Sys2Proof.Machine
end

