-- ==== Sys2Proof/Laws/Cipher.lean ====
section
/-! SUPPORT. The laws of the block-cipher capability (`00_scope.md` rule R8): `E` and `D` keep the length of a
block and are inverse to each other, for the uninterpreted capability and for the toy cipher alike. -/

namespace Sys2Proof.Machine

@[simp] theorem toyKey_length (key : Bytes) (n : Nat) : (toyKey key n).length = n := by
  simp [toyKey]

@[simp] theorem toyEnc_length (key x : Bytes) : (toyEnc key x).length = x.length := by
  simp only [toyEnc, List.length_zipWith, List.length_append, List.length_drop, List.length_take,
    toyKey_length]
  omega

@[simp] theorem toyDec_length (key y : Bytes) : (toyDec key y).length = y.length := by
  simp only [toyDec, List.length_append, List.length_drop, List.length_take, List.length_zipWith,
    toyKey_length]
  omega

theorem sub_of_add (x k : Bytes) (h : x.length = k.length) :
    List.zipWith (fun a b => a - b) (List.zipWith (fun a b => a + b) x k) k = x := by
  induction x generalizing k with
  | nil => rfl
  | cons a x ih =>
    cases k with
    | nil => simp at h
    | cons b k => simp [ih k (by simpa using h)]

theorem add_of_sub (x k : Bytes) (h : x.length = k.length) :
    List.zipWith (fun a b => a + b) (List.zipWith (fun a b => a - b) x k) k = x := by
  induction x generalizing k with
  | nil => rfl
  | cons a x ih =>
    cases k with
    | nil => simp at h
    | cons b k => simp [ih k (by simpa using h)]

/-- Rotating left and then right by one byte. -/
theorem rotate_back (x : Bytes) :
    (x.drop 1 ++ x.take 1).drop (x.length - 1) ++ (x.drop 1 ++ x.take 1).take (x.length - 1) = x := by
  cases x with
  | nil => rfl
  | cons a x => simp

/-- Rotating right and then left by one byte. -/
theorem rotate_forth (z : Bytes) :
    (z.drop (z.length - 1) ++ z.take (z.length - 1)).drop 1
      ++ (z.drop (z.length - 1) ++ z.take (z.length - 1)).take 1 = z := by
  rcases List.eq_nil_or_concat z with rfl | ⟨l, a, rfl⟩
  · rfl
  · simp

theorem toyDec_toyEnc (key x : Bytes) : toyDec key (toyEnc key x) = x := by
  have hl : (x.drop 1 ++ x.take 1).length = (toyKey key x.length).length := by
    simp only [List.length_append, List.length_drop, List.length_take, toyKey_length]
    omega
  have hz : List.zipWith (fun a b => a - b) (toyEnc key x) (toyKey key x.length) = x.drop 1 ++ x.take 1 := by
    unfold toyEnc
    exact sub_of_add _ _ hl
  simp only [toyDec, toyEnc_length, hz]
  exact rotate_back x

theorem toyEnc_toyDec (key y : Bytes) : toyEnc key (toyDec key y) = y := by
  have hy : y.length = (toyKey key y.length).length := by simp
  have hlen : (List.zipWith (fun a b => a - b) y (toyKey key y.length)).length = y.length := by simp
  have hr := rotate_forth (List.zipWith (fun a b => a - b) y (toyKey key y.length))
  rw [hlen] at hr
  unfold toyEnc
  rw [toyDec_length]
  simp only [toyDec]
  rw [hr]
  exact add_of_sub _ _ hy

/-- "each maps exactly `BS` bytes to exactly `BS` bytes" (rule R8). -/
@[simp] theorem cipherEnc_length (st : CipherState) (x : Bytes) : (cipherEnc st x).length = x.length := by
  cases st with
  | zero => exact (Config.cipher x.length none ⟨x, rfl⟩).property
  | attached h => exact (Config.cipher x.length (some h) ⟨x, rfl⟩).property
  | toy key => exact toyEnc_length key x

@[simp] theorem cipherDec_length (st : CipherState) (y : Bytes) : (cipherDec st y).length = y.length := by
  cases st with
  | zero => exact ((Config.cipher y.length none).symm ⟨y, rfl⟩).property
  | attached h => exact ((Config.cipher y.length (some h)).symm ⟨y, rfl⟩).property
  | toy key => exact toyDec_length key y

/-- Reading the inverse of a permutation of blocks at the length of the block it came from. -/
theorem perm_symm_val (h : Option Nat) (n : Nat) (v w : List.Vector Byte n) (y : Bytes) (hy : y = v.val)
    (hv : (Config.cipher n h).symm v = w) : ((Config.cipher y.length h).symm ⟨y, rfl⟩).val = w.val := by
  obtain ⟨v, rfl⟩ := v
  subst hy
  exact congrArg Subtype.val hv

theorem perm_val (h : Option Nat) (n : Nat) (v w : List.Vector Byte n) (y : Bytes) (hy : y = v.val)
    (hv : Config.cipher n h v = w) : (Config.cipher y.length h ⟨y, rfl⟩).val = w.val := by
  obtain ⟨v, rfl⟩ := v
  subst hy
  exact congrArg Subtype.val hv

/-- `D(st, E(st, x)) = x` (rule R8). -/
@[simp] theorem cipherDec_cipherEnc (st : CipherState) (x : Bytes) : cipherDec st (cipherEnc st x) = x := by
  cases st with
  | zero => exact perm_symm_val none x.length _ ⟨x, rfl⟩ _ rfl (Equiv.symm_apply_apply _ _)
  | attached h => exact perm_symm_val (some h) x.length _ ⟨x, rfl⟩ _ rfl (Equiv.symm_apply_apply _ _)
  | toy key => exact toyDec_toyEnc key x

/-- `E(st, D(st, y)) = y` (rule R8). -/
@[simp] theorem cipherEnc_cipherDec (st : CipherState) (y : Bytes) : cipherEnc st (cipherDec st y) = y := by
  cases st with
  | zero => exact perm_val none y.length _ ⟨y, rfl⟩ _ rfl (Equiv.apply_symm_apply _ _)
  | attached h => exact perm_val (some h) y.length _ ⟨y, rfl⟩ _ rfl (Equiv.apply_symm_apply _ _)
  | toy key => exact toyEnc_toyDec key y

end Sys2Proof.Machine
end

