-- ==== Sys2Proof/Laws/State.lean ====
section
/-! SUPPORT. What every update leaves in every field of the state, one lemma each, true by `rfl`. -/

namespace Sys2Proof.Machine

@[simp] theorem State.withCtx_params (s : State) (c : Context) : (s.withCtx c).params = s.params := rfl
@[simp] theorem State.withCtx_ctx (s : State) (c : Context) : (s.withCtx c).ctx = c := rfl
@[simp] theorem State.withCtx_gen (s : State) (c : Context) : (s.withCtx c).gen = s.gen := rfl
@[simp] theorem State.withCtx_stage (s : State) (c : Context) : (s.withCtx c).stage = s.stage := rfl
@[simp] theorem State.withCtx_pos (s : State) (c : Context) : (s.withCtx c).pos = s.pos := rfl
@[simp] theorem State.withCtx_inBuf (s : State) (c : Context) : (s.withCtx c).inBuf = s.inBuf := rfl
@[simp] theorem State.withCtx_outBuf (s : State) (c : Context) : (s.withCtx c).outBuf = s.outBuf := rfl
@[simp] theorem State.withCtx_cmdPort (s : State) (c : Context) : (s.withCtx c).cmdPort = s.cmdPort := rfl
@[simp] theorem State.withCtx_replies (s : State) (c : Context) : (s.withCtx c).replies = s.replies := rfl
@[simp] theorem State.withCtx_dataOut (s : State) (c : Context) : (s.withCtx c).dataOut = s.dataOut := rfl
@[simp] theorem State.withCtx_ports (s : State) (c : Context) : (s.withCtx c).ports = s.ports := rfl
@[simp] theorem State.withCtx_bs (s : State) (c : Context) : (s.withCtx c).bs = s.bs := rfl
@[simp] theorem State.withCtx_ks (s : State) (c : Context) : (s.withCtx c).ks = s.ks := rfl

@[simp] theorem State.withGen_params (s : State) (g : Generator) : (s.withGen g).params = s.params := rfl
@[simp] theorem State.withGen_ctx (s : State) (g : Generator) : (s.withGen g).ctx = s.ctx := rfl
@[simp] theorem State.withGen_gen (s : State) (g : Generator) : (s.withGen g).gen = g := rfl
@[simp] theorem State.withGen_stage (s : State) (g : Generator) : (s.withGen g).stage = s.stage := rfl
@[simp] theorem State.withGen_pos (s : State) (g : Generator) : (s.withGen g).pos = s.pos := rfl
@[simp] theorem State.withGen_inBuf (s : State) (g : Generator) : (s.withGen g).inBuf = s.inBuf := rfl
@[simp] theorem State.withGen_outBuf (s : State) (g : Generator) : (s.withGen g).outBuf = s.outBuf := rfl
@[simp] theorem State.withGen_cmdPort (s : State) (g : Generator) : (s.withGen g).cmdPort = s.cmdPort := rfl
@[simp] theorem State.withGen_replies (s : State) (g : Generator) : (s.withGen g).replies = s.replies := rfl
@[simp] theorem State.withGen_dataOut (s : State) (g : Generator) : (s.withGen g).dataOut = s.dataOut := rfl
@[simp] theorem State.withGen_ports (s : State) (g : Generator) : (s.withGen g).ports = s.ports := rfl
@[simp] theorem State.withGen_bs (s : State) (g : Generator) : (s.withGen g).bs = s.bs := rfl
@[simp] theorem State.withGen_ks (s : State) (g : Generator) : (s.withGen g).ks = s.ks := rfl

@[simp] theorem State.withStage_params (s : State) (st : Stage) : (s.withStage st).params = s.params := rfl
@[simp] theorem State.withStage_ctx (s : State) (st : Stage) : (s.withStage st).ctx = s.ctx := rfl
@[simp] theorem State.withStage_gen (s : State) (st : Stage) : (s.withStage st).gen = s.gen := rfl
@[simp] theorem State.withStage_stage (s : State) (st : Stage) : (s.withStage st).stage = st := rfl
@[simp] theorem State.withStage_pos (s : State) (st : Stage) : (s.withStage st).pos = s.pos := rfl
@[simp] theorem State.withStage_inBuf (s : State) (st : Stage) : (s.withStage st).inBuf = s.inBuf := rfl
@[simp] theorem State.withStage_outBuf (s : State) (st : Stage) : (s.withStage st).outBuf = s.outBuf := rfl
@[simp] theorem State.withStage_cmdPort (s : State) (st : Stage) : (s.withStage st).cmdPort = s.cmdPort := rfl
@[simp] theorem State.withStage_replies (s : State) (st : Stage) : (s.withStage st).replies = s.replies := rfl
@[simp] theorem State.withStage_dataOut (s : State) (st : Stage) : (s.withStage st).dataOut = s.dataOut := rfl
@[simp] theorem State.withStage_ports (s : State) (st : Stage) : (s.withStage st).ports = s.ports := rfl
@[simp] theorem State.withStage_bs (s : State) (st : Stage) : (s.withStage st).bs = s.bs := rfl
@[simp] theorem State.withStage_ks (s : State) (st : Stage) : (s.withStage st).ks = s.ks := rfl

@[simp] theorem State.withReplies_params (s : State) (r : List CounterReply) : (s.withReplies r).params = s.params := rfl
@[simp] theorem State.withReplies_ctx (s : State) (r : List CounterReply) : (s.withReplies r).ctx = s.ctx := rfl
@[simp] theorem State.withReplies_gen (s : State) (r : List CounterReply) : (s.withReplies r).gen = s.gen := rfl
@[simp] theorem State.withReplies_stage (s : State) (r : List CounterReply) : (s.withReplies r).stage = s.stage := rfl
@[simp] theorem State.withReplies_pos (s : State) (r : List CounterReply) : (s.withReplies r).pos = s.pos := rfl
@[simp] theorem State.withReplies_inBuf (s : State) (r : List CounterReply) : (s.withReplies r).inBuf = s.inBuf := rfl
@[simp] theorem State.withReplies_outBuf (s : State) (r : List CounterReply) : (s.withReplies r).outBuf = s.outBuf := rfl
@[simp] theorem State.withReplies_cmdPort (s : State) (r : List CounterReply) : (s.withReplies r).cmdPort = s.cmdPort := rfl
@[simp] theorem State.withReplies_replies (s : State) (r : List CounterReply) : (s.withReplies r).replies = r := rfl
@[simp] theorem State.withReplies_dataOut (s : State) (r : List CounterReply) : (s.withReplies r).dataOut = s.dataOut := rfl
@[simp] theorem State.withReplies_ports (s : State) (r : List CounterReply) : (s.withReplies r).ports = s.ports := rfl
@[simp] theorem State.withReplies_bs (s : State) (r : List CounterReply) : (s.withReplies r).bs = s.bs := rfl
@[simp] theorem State.withReplies_ks (s : State) (r : List CounterReply) : (s.withReplies r).ks = s.ks := rfl

@[simp] theorem State.noteInit_params (s : State) : s.noteInit.params = s.params := rfl
@[simp] theorem State.noteInit_ctx (s : State) : s.noteInit.ctx = s.ctx := rfl
@[simp] theorem State.noteInit_gen (s : State) : s.noteInit.gen = s.gen := rfl
@[simp] theorem State.noteInit_stage (s : State) : s.noteInit.stage = s.stage := rfl
@[simp] theorem State.noteInit_pos (s : State) : s.noteInit.pos = s.pos := rfl
@[simp] theorem State.noteInit_inBuf (s : State) : s.noteInit.inBuf = s.inBuf := rfl
@[simp] theorem State.noteInit_outBuf (s : State) : s.noteInit.outBuf = s.outBuf := rfl
@[simp] theorem State.noteInit_cmdPort (s : State) : s.noteInit.cmdPort = s.cmdPort := rfl
@[simp] theorem State.noteInit_replies (s : State) : s.noteInit.replies = s.replies := rfl
@[simp] theorem State.noteInit_dataOut (s : State) : s.noteInit.dataOut = s.dataOut := rfl
@[simp] theorem State.noteInit_ports (s : State) : s.noteInit.ports = { s.ports with init := s.ports.init + 1 } := rfl
@[simp] theorem State.noteInit_bs (s : State) : s.noteInit.bs = s.bs := rfl
@[simp] theorem State.noteInit_ks (s : State) : s.noteInit.ks = s.ks := rfl

@[simp] theorem State.noteEnc_params (s : State) : s.noteEnc.params = s.params := rfl
@[simp] theorem State.noteEnc_ctx (s : State) : s.noteEnc.ctx = s.ctx := rfl
@[simp] theorem State.noteEnc_gen (s : State) : s.noteEnc.gen = s.gen := rfl
@[simp] theorem State.noteEnc_stage (s : State) : s.noteEnc.stage = s.stage := rfl
@[simp] theorem State.noteEnc_pos (s : State) : s.noteEnc.pos = s.pos := rfl
@[simp] theorem State.noteEnc_inBuf (s : State) : s.noteEnc.inBuf = s.inBuf := rfl
@[simp] theorem State.noteEnc_outBuf (s : State) : s.noteEnc.outBuf = s.outBuf := rfl
@[simp] theorem State.noteEnc_cmdPort (s : State) : s.noteEnc.cmdPort = s.cmdPort := rfl
@[simp] theorem State.noteEnc_replies (s : State) : s.noteEnc.replies = s.replies := rfl
@[simp] theorem State.noteEnc_dataOut (s : State) : s.noteEnc.dataOut = s.dataOut := rfl
@[simp] theorem State.noteEnc_ports (s : State) : s.noteEnc.ports = { s.ports with enc := s.ports.enc + 1 } := rfl
@[simp] theorem State.noteEnc_bs (s : State) : s.noteEnc.bs = s.bs := rfl
@[simp] theorem State.noteEnc_ks (s : State) : s.noteEnc.ks = s.ks := rfl

@[simp] theorem State.noteDec_params (s : State) : s.noteDec.params = s.params := rfl
@[simp] theorem State.noteDec_ctx (s : State) : s.noteDec.ctx = s.ctx := rfl
@[simp] theorem State.noteDec_gen (s : State) : s.noteDec.gen = s.gen := rfl
@[simp] theorem State.noteDec_stage (s : State) : s.noteDec.stage = s.stage := rfl
@[simp] theorem State.noteDec_pos (s : State) : s.noteDec.pos = s.pos := rfl
@[simp] theorem State.noteDec_inBuf (s : State) : s.noteDec.inBuf = s.inBuf := rfl
@[simp] theorem State.noteDec_outBuf (s : State) : s.noteDec.outBuf = s.outBuf := rfl
@[simp] theorem State.noteDec_cmdPort (s : State) : s.noteDec.cmdPort = s.cmdPort := rfl
@[simp] theorem State.noteDec_replies (s : State) : s.noteDec.replies = s.replies := rfl
@[simp] theorem State.noteDec_dataOut (s : State) : s.noteDec.dataOut = s.dataOut := rfl
@[simp] theorem State.noteDec_ports (s : State) : s.noteDec.ports = { s.ports with dec := s.ports.dec + 1 } := rfl
@[simp] theorem State.noteDec_bs (s : State) : s.noteDec.bs = s.bs := rfl
@[simp] theorem State.noteDec_ks (s : State) : s.noteDec.ks = s.ks := rfl

@[simp] theorem State.noteCounter_params (s : State) : s.noteCounter.params = s.params := rfl
@[simp] theorem State.noteCounter_ctx (s : State) : s.noteCounter.ctx = s.ctx := rfl
@[simp] theorem State.noteCounter_gen (s : State) : s.noteCounter.gen = s.gen := rfl
@[simp] theorem State.noteCounter_stage (s : State) : s.noteCounter.stage = s.stage := rfl
@[simp] theorem State.noteCounter_pos (s : State) : s.noteCounter.pos = s.pos := rfl
@[simp] theorem State.noteCounter_inBuf (s : State) : s.noteCounter.inBuf = s.inBuf := rfl
@[simp] theorem State.noteCounter_outBuf (s : State) : s.noteCounter.outBuf = s.outBuf := rfl
@[simp] theorem State.noteCounter_cmdPort (s : State) : s.noteCounter.cmdPort = s.cmdPort := rfl
@[simp] theorem State.noteCounter_replies (s : State) : s.noteCounter.replies = s.replies := rfl
@[simp] theorem State.noteCounter_dataOut (s : State) : s.noteCounter.dataOut = s.dataOut := rfl
@[simp] theorem State.noteCounter_ports (s : State) : s.noteCounter.ports = { s.ports with counter := s.ports.counter + 1 } := rfl
@[simp] theorem State.noteCounter_bs (s : State) : s.noteCounter.bs = s.bs := rfl
@[simp] theorem State.noteCounter_ks (s : State) : s.noteCounter.ks = s.ks := rfl

@[simp] theorem Context.withIv_valid (c : Context) (v : Bytes) : (c.withIv v).valid = c.valid := rfl
@[simp] theorem Context.withIv_mode (c : Context) (v : Bytes) : (c.withIv v).mode = c.mode := rfl
@[simp] theorem Context.withIv_st (c : Context) (v : Bytes) : (c.withIv v).st = c.st := rfl
@[simp] theorem Context.withIv_iv (c : Context) (v : Bytes) : (c.withIv v).iv = v := rfl
@[simp] theorem Context.withIv_oldCipher (c : Context) (v : Bytes) : (c.withIv v).oldCipher = c.oldCipher := rfl
@[simp] theorem Context.withIv_segmentSize (c : Context) (v : Bytes) : (c.withIv v).segmentSize = c.segmentSize := rfl
@[simp] theorem Context.withIv_count (c : Context) (v : Bytes) : (c.withIv v).count = c.count := rfl
@[simp] theorem Context.withIv_csrc (c : Context) (v : Bytes) : (c.withIv v).csrc = c.csrc := rfl
@[simp] theorem Context.withIv_prfMode (c : Context) (v : Bytes) : (c.withIv v).prfMode = c.prfMode := rfl
@[simp] theorem Context.withIv_tmp (c : Context) (v : Bytes) : (c.withIv v).tmp = c.tmp := rfl

@[simp] theorem Context.withOldCipher_valid (c : Context) (v : Bytes) : (c.withOldCipher v).valid = c.valid := rfl
@[simp] theorem Context.withOldCipher_mode (c : Context) (v : Bytes) : (c.withOldCipher v).mode = c.mode := rfl
@[simp] theorem Context.withOldCipher_st (c : Context) (v : Bytes) : (c.withOldCipher v).st = c.st := rfl
@[simp] theorem Context.withOldCipher_iv (c : Context) (v : Bytes) : (c.withOldCipher v).iv = c.iv := rfl
@[simp] theorem Context.withOldCipher_oldCipher (c : Context) (v : Bytes) : (c.withOldCipher v).oldCipher = v := rfl
@[simp] theorem Context.withOldCipher_segmentSize (c : Context) (v : Bytes) : (c.withOldCipher v).segmentSize = c.segmentSize := rfl
@[simp] theorem Context.withOldCipher_count (c : Context) (v : Bytes) : (c.withOldCipher v).count = c.count := rfl
@[simp] theorem Context.withOldCipher_csrc (c : Context) (v : Bytes) : (c.withOldCipher v).csrc = c.csrc := rfl
@[simp] theorem Context.withOldCipher_prfMode (c : Context) (v : Bytes) : (c.withOldCipher v).prfMode = c.prfMode := rfl
@[simp] theorem Context.withOldCipher_tmp (c : Context) (v : Bytes) : (c.withOldCipher v).tmp = c.tmp := rfl

@[simp] theorem Context.withTmp_valid (c : Context) (v : Bytes) : (c.withTmp v).valid = c.valid := rfl
@[simp] theorem Context.withTmp_mode (c : Context) (v : Bytes) : (c.withTmp v).mode = c.mode := rfl
@[simp] theorem Context.withTmp_st (c : Context) (v : Bytes) : (c.withTmp v).st = c.st := rfl
@[simp] theorem Context.withTmp_iv (c : Context) (v : Bytes) : (c.withTmp v).iv = c.iv := rfl
@[simp] theorem Context.withTmp_oldCipher (c : Context) (v : Bytes) : (c.withTmp v).oldCipher = c.oldCipher := rfl
@[simp] theorem Context.withTmp_segmentSize (c : Context) (v : Bytes) : (c.withTmp v).segmentSize = c.segmentSize := rfl
@[simp] theorem Context.withTmp_count (c : Context) (v : Bytes) : (c.withTmp v).count = c.count := rfl
@[simp] theorem Context.withTmp_csrc (c : Context) (v : Bytes) : (c.withTmp v).csrc = c.csrc := rfl
@[simp] theorem Context.withTmp_prfMode (c : Context) (v : Bytes) : (c.withTmp v).prfMode = c.prfMode := rfl
@[simp] theorem Context.withTmp_tmp (c : Context) (v : Bytes) : (c.withTmp v).tmp = v := rfl

@[simp] theorem Context.withCount_valid (c : Context) (n : Nat) : (c.withCount n).valid = c.valid := rfl
@[simp] theorem Context.withCount_mode (c : Context) (n : Nat) : (c.withCount n).mode = c.mode := rfl
@[simp] theorem Context.withCount_st (c : Context) (n : Nat) : (c.withCount n).st = c.st := rfl
@[simp] theorem Context.withCount_iv (c : Context) (n : Nat) : (c.withCount n).iv = c.iv := rfl
@[simp] theorem Context.withCount_oldCipher (c : Context) (n : Nat) : (c.withCount n).oldCipher = c.oldCipher := rfl
@[simp] theorem Context.withCount_segmentSize (c : Context) (n : Nat) : (c.withCount n).segmentSize = c.segmentSize := rfl
@[simp] theorem Context.withCount_count (c : Context) (n : Nat) : (c.withCount n).count = n := rfl
@[simp] theorem Context.withCount_csrc (c : Context) (n : Nat) : (c.withCount n).csrc = c.csrc := rfl
@[simp] theorem Context.withCount_prfMode (c : Context) (n : Nat) : (c.withCount n).prfMode = c.prfMode := rfl
@[simp] theorem Context.withCount_tmp (c : Context) (n : Nat) : (c.withCount n).tmp = c.tmp := rfl

@[simp] theorem Context.withPrfMode_valid (c : Context) (v : Bool) : (c.withPrfMode v).valid = c.valid := rfl
@[simp] theorem Context.withPrfMode_mode (c : Context) (v : Bool) : (c.withPrfMode v).mode = c.mode := rfl
@[simp] theorem Context.withPrfMode_st (c : Context) (v : Bool) : (c.withPrfMode v).st = c.st := rfl
@[simp] theorem Context.withPrfMode_iv (c : Context) (v : Bool) : (c.withPrfMode v).iv = c.iv := rfl
@[simp] theorem Context.withPrfMode_oldCipher (c : Context) (v : Bool) : (c.withPrfMode v).oldCipher = c.oldCipher := rfl
@[simp] theorem Context.withPrfMode_segmentSize (c : Context) (v : Bool) : (c.withPrfMode v).segmentSize = c.segmentSize := rfl
@[simp] theorem Context.withPrfMode_count (c : Context) (v : Bool) : (c.withPrfMode v).count = c.count := rfl
@[simp] theorem Context.withPrfMode_csrc (c : Context) (v : Bool) : (c.withPrfMode v).csrc = c.csrc := rfl
@[simp] theorem Context.withPrfMode_prfMode (c : Context) (v : Bool) : (c.withPrfMode v).prfMode = v := rfl
@[simp] theorem Context.withPrfMode_tmp (c : Context) (v : Bool) : (c.withPrfMode v).tmp = c.tmp := rfl

@[simp] theorem respond_params (r : Response) (s : State) : (respond r s).params = s.params := rfl
@[simp] theorem respond_ctx (r : Response) (s : State) : (respond r s).ctx = s.ctx := rfl
@[simp] theorem respond_gen (r : Response) (s : State) : (respond r s).gen = s.gen := rfl
@[simp] theorem respond_stage (r : Response) (s : State) : (respond r s).stage = .idle := rfl
@[simp] theorem respond_pos (r : Response) (s : State) : (respond r s).pos = 0 := rfl
@[simp] theorem respond_inBuf (r : Response) (s : State) : (respond r s).inBuf = [] := rfl
@[simp] theorem respond_outBuf (r : Response) (s : State) : (respond r s).outBuf = [] := rfl
@[simp] theorem respond_cmdPort (r : Response) (s : State) : (respond r s).cmdPort = s.cmdPort := rfl
@[simp] theorem respond_replies (r : Response) (s : State) : (respond r s).replies = s.replies := rfl
@[simp] theorem respond_dataOut (r : Response) (s : State) : (respond r s).dataOut = s.dataOut ++ [r] := rfl
@[simp] theorem respond_ports (r : Response) (s : State) : (respond r s).ports = s.ports := rfl
@[simp] theorem respond_bs (r : Response) (s : State) : (respond r s).bs = s.bs := rfl
@[simp] theorem respond_ks (r : Response) (s : State) : (respond r s).ks = s.ks := rfl

@[simp] theorem complete_params (res : Bytes) (s : State) : (complete res s).params = s.params := rfl
@[simp] theorem complete_ctx (res : Bytes) (s : State) : (complete res s).ctx = s.ctx := rfl
@[simp] theorem complete_gen (res : Bytes) (s : State) : (complete res s).gen = s.gen := rfl
@[simp] theorem complete_stage (res : Bytes) (s : State) : (complete res s).stage = .idle := rfl
@[simp] theorem complete_pos (res : Bytes) (s : State) : (complete res s).pos = 0 := rfl
@[simp] theorem complete_inBuf (res : Bytes) (s : State) : (complete res s).inBuf = [] := rfl
@[simp] theorem complete_outBuf (res : Bytes) (s : State) : (complete res s).outBuf = [] := rfl
@[simp] theorem complete_cmdPort (res : Bytes) (s : State) : (complete res s).cmdPort = s.cmdPort := rfl
@[simp] theorem complete_replies (res : Bytes) (s : State) : (complete res s).replies = s.replies := rfl
@[simp] theorem complete_dataOut (res : Bytes) (s : State) : (complete res s).dataOut = s.dataOut ++ [{ status := okStatus, result := res }] := rfl
@[simp] theorem complete_ports (res : Bytes) (s : State) : (complete res s).ports = s.ports := rfl
@[simp] theorem complete_bs (res : Bytes) (s : State) : (complete res s).bs = s.bs := rfl
@[simp] theorem complete_ks (res : Bytes) (s : State) : (complete res s).ks = s.ks := rfl

@[simp] theorem raiseStatus_params (cls cause : Byte) (s : State) : (raiseStatus cls cause s).params = s.params := rfl
@[simp] theorem raiseStatus_ctx (cls cause : Byte) (s : State) : (raiseStatus cls cause s).ctx = s.ctx := rfl
@[simp] theorem raiseStatus_gen (cls cause : Byte) (s : State) : (raiseStatus cls cause s).gen = s.gen := rfl
@[simp] theorem raiseStatus_stage (cls cause : Byte) (s : State) : (raiseStatus cls cause s).stage = .idle := rfl
@[simp] theorem raiseStatus_pos (cls cause : Byte) (s : State) : (raiseStatus cls cause s).pos = 0 := rfl
@[simp] theorem raiseStatus_inBuf (cls cause : Byte) (s : State) : (raiseStatus cls cause s).inBuf = [] := rfl
@[simp] theorem raiseStatus_outBuf (cls cause : Byte) (s : State) : (raiseStatus cls cause s).outBuf = [] := rfl
@[simp] theorem raiseStatus_cmdPort (cls cause : Byte) (s : State) : (raiseStatus cls cause s).cmdPort = s.cmdPort := rfl
@[simp] theorem raiseStatus_replies (cls cause : Byte) (s : State) : (raiseStatus cls cause s).replies = s.replies := rfl
@[simp] theorem raiseStatus_dataOut (cls cause : Byte) (s : State) : (raiseStatus cls cause s).dataOut = s.dataOut ++ [{ status := statusWord cls cause, result := [] }] := rfl
@[simp] theorem raiseStatus_ports (cls cause : Byte) (s : State) : (raiseStatus cls cause s).ports = s.ports := rfl
@[simp] theorem raiseStatus_bs (cls cause : Byte) (s : State) : (raiseStatus cls cause s).bs = s.bs := rfl
@[simp] theorem raiseStatus_ks (cls cause : Byte) (s : State) : (raiseStatus cls cause s).ks = s.ks := rfl

@[simp] theorem raise_params (c : Cause) (s : State) : (raise c s).params = s.params := rfl
@[simp] theorem raise_ctx (c : Cause) (s : State) : (raise c s).ctx = s.ctx := rfl
@[simp] theorem raise_gen (c : Cause) (s : State) : (raise c s).gen = s.gen := rfl
@[simp] theorem raise_stage (c : Cause) (s : State) : (raise c s).stage = .idle := rfl
@[simp] theorem raise_pos (c : Cause) (s : State) : (raise c s).pos = 0 := rfl
@[simp] theorem raise_inBuf (c : Cause) (s : State) : (raise c s).inBuf = [] := rfl
@[simp] theorem raise_outBuf (c : Cause) (s : State) : (raise c s).outBuf = [] := rfl
@[simp] theorem raise_cmdPort (c : Cause) (s : State) : (raise c s).cmdPort = s.cmdPort := rfl
@[simp] theorem raise_replies (c : Cause) (s : State) : (raise c s).replies = s.replies := rfl
@[simp] theorem raise_dataOut (c : Cause) (s : State) : (raise c s).dataOut = s.dataOut ++ [{ status := statusWord (causeClass c) (causeCode c), result := [] }] := rfl
@[simp] theorem raise_ports (c : Cause) (s : State) : (raise c s).ports = s.ports := rfl
@[simp] theorem raise_bs (c : Cause) (s : State) : (raise c s).bs = s.bs := rfl
@[simp] theorem raise_ks (c : Cause) (s : State) : (raise c s).ks = s.ks := rfl

@[simp] theorem allocate_params (b : Bytes) (s : State) : (allocate b s).params = s.params := rfl
@[simp] theorem allocate_ctx (b : Bytes) (s : State) : (allocate b s).ctx = s.ctx := rfl
@[simp] theorem allocate_gen (b : Bytes) (s : State) : (allocate b s).gen = s.gen := rfl
@[simp] theorem allocate_stage (b : Bytes) (s : State) : (allocate b s).stage = .run := rfl
@[simp] theorem allocate_pos (b : Bytes) (s : State) : (allocate b s).pos = 0 := rfl
@[simp] theorem allocate_inBuf (b : Bytes) (s : State) : (allocate b s).inBuf = b := rfl
@[simp] theorem allocate_outBuf (b : Bytes) (s : State) : (allocate b s).outBuf = [] := rfl
@[simp] theorem allocate_cmdPort (b : Bytes) (s : State) : (allocate b s).cmdPort = s.cmdPort := rfl
@[simp] theorem allocate_replies (b : Bytes) (s : State) : (allocate b s).replies = s.replies := rfl
@[simp] theorem allocate_dataOut (b : Bytes) (s : State) : (allocate b s).dataOut = s.dataOut := rfl
@[simp] theorem allocate_ports (b : Bytes) (s : State) : (allocate b s).ports = s.ports := rfl
@[simp] theorem allocate_bs (b : Bytes) (s : State) : (allocate b s).bs = s.bs := rfl
@[simp] theorem allocate_ks (b : Bytes) (s : State) : (allocate b s).ks = s.ks := rfl

@[simp] theorem writeOut_params (v : Bytes) (s : State) : (writeOut v s).params = s.params := rfl
@[simp] theorem writeOut_ctx (v : Bytes) (s : State) : (writeOut v s).ctx = s.ctx := rfl
@[simp] theorem writeOut_gen (v : Bytes) (s : State) : (writeOut v s).gen = s.gen := rfl
@[simp] theorem writeOut_stage (v : Bytes) (s : State) : (writeOut v s).stage = s.stage := rfl
@[simp] theorem writeOut_pos (v : Bytes) (s : State) : (writeOut v s).pos = s.pos + v.length := rfl
@[simp] theorem writeOut_inBuf (v : Bytes) (s : State) : (writeOut v s).inBuf = s.inBuf := rfl
@[simp] theorem writeOut_outBuf (v : Bytes) (s : State) : (writeOut v s).outBuf = s.outBuf ++ v := rfl
@[simp] theorem writeOut_cmdPort (v : Bytes) (s : State) : (writeOut v s).cmdPort = s.cmdPort := rfl
@[simp] theorem writeOut_replies (v : Bytes) (s : State) : (writeOut v s).replies = s.replies := rfl
@[simp] theorem writeOut_dataOut (v : Bytes) (s : State) : (writeOut v s).dataOut = s.dataOut := rfl
@[simp] theorem writeOut_ports (v : Bytes) (s : State) : (writeOut v s).ports = s.ports := rfl
@[simp] theorem writeOut_bs (v : Bytes) (s : State) : (writeOut v s).bs = s.bs := rfl
@[simp] theorem writeOut_ks (v : Bytes) (s : State) : (writeOut v s).ks = s.ks := rfl

@[simp] theorem accept_params (rest : List Transaction) (s : State) : (accept rest s).params = s.params := rfl
@[simp] theorem accept_ctx (rest : List Transaction) (s : State) : (accept rest s).ctx = s.ctx := rfl
@[simp] theorem accept_gen (rest : List Transaction) (s : State) : (accept rest s).gen = s.gen := rfl
@[simp] theorem accept_stage (rest : List Transaction) (s : State) : (accept rest s).stage = .check := rfl
@[simp] theorem accept_pos (rest : List Transaction) (s : State) : (accept rest s).pos = s.pos := rfl
@[simp] theorem accept_inBuf (rest : List Transaction) (s : State) : (accept rest s).inBuf = s.inBuf := rfl
@[simp] theorem accept_outBuf (rest : List Transaction) (s : State) : (accept rest s).outBuf = s.outBuf := rfl
@[simp] theorem accept_cmdPort (rest : List Transaction) (s : State) : (accept rest s).cmdPort = rest := rfl
@[simp] theorem accept_replies (rest : List Transaction) (s : State) : (accept rest s).replies = s.replies := rfl
@[simp] theorem accept_dataOut (rest : List Transaction) (s : State) : (accept rest s).dataOut = s.dataOut := rfl
@[simp] theorem accept_ports (rest : List Transaction) (s : State) : (accept rest s).ports = s.ports := rfl
@[simp] theorem accept_bs (rest : List Transaction) (s : State) : (accept rest s).bs = s.bs := rfl
@[simp] theorem accept_ks (rest : List Transaction) (s : State) : (accept rest s).ks = s.ks := rfl

@[simp] theorem offerFirst_params (t : Transaction) (s : State) : (offerFirst t s).params = s.params := rfl
@[simp] theorem offerFirst_ctx (t : Transaction) (s : State) : (offerFirst t s).ctx = s.ctx := rfl
@[simp] theorem offerFirst_gen (t : Transaction) (s : State) : (offerFirst t s).gen = s.gen := rfl
@[simp] theorem offerFirst_stage (t : Transaction) (s : State) : (offerFirst t s).stage = .idle := rfl
@[simp] theorem offerFirst_pos (t : Transaction) (s : State) : (offerFirst t s).pos = s.pos := rfl
@[simp] theorem offerFirst_inBuf (t : Transaction) (s : State) : (offerFirst t s).inBuf = s.inBuf := rfl
@[simp] theorem offerFirst_outBuf (t : Transaction) (s : State) : (offerFirst t s).outBuf = s.outBuf := rfl
@[simp] theorem offerFirst_cmdPort (t : Transaction) (s : State) : (offerFirst t s).cmdPort = t :: s.cmdPort := rfl
@[simp] theorem offerFirst_replies (t : Transaction) (s : State) : (offerFirst t s).replies = s.replies := rfl
@[simp] theorem offerFirst_dataOut (t : Transaction) (s : State) : (offerFirst t s).dataOut = s.dataOut := rfl
@[simp] theorem offerFirst_ports (t : Transaction) (s : State) : (offerFirst t s).ports = s.ports := rfl
@[simp] theorem offerFirst_bs (t : Transaction) (s : State) : (offerFirst t s).bs = s.bs := rfl
@[simp] theorem offerFirst_ks (t : Transaction) (s : State) : (offerFirst t s).ks = s.ks := rfl

@[simp] theorem fillFrom_params (v : Bytes) (s : State) : (fillFrom v s).params = s.params := rfl
@[simp] theorem fillFrom_ctx (v : Bytes) (s : State) : (fillFrom v s).ctx = s.ctx.withIv (cipherEnc s.ctx.st v) := rfl
@[simp] theorem fillFrom_gen (v : Bytes) (s : State) : (fillFrom v s).gen = s.gen := rfl
@[simp] theorem fillFrom_stage (v : Bytes) (s : State) : (fillFrom v s).stage = s.stage := rfl
@[simp] theorem fillFrom_pos (v : Bytes) (s : State) : (fillFrom v s).pos = s.pos := rfl
@[simp] theorem fillFrom_inBuf (v : Bytes) (s : State) : (fillFrom v s).inBuf = s.inBuf := rfl
@[simp] theorem fillFrom_outBuf (v : Bytes) (s : State) : (fillFrom v s).outBuf = s.outBuf := rfl
@[simp] theorem fillFrom_cmdPort (v : Bytes) (s : State) : (fillFrom v s).cmdPort = s.cmdPort := rfl
@[simp] theorem fillFrom_replies (v : Bytes) (s : State) : (fillFrom v s).replies = s.replies := rfl
@[simp] theorem fillFrom_dataOut (v : Bytes) (s : State) : (fillFrom v s).dataOut = s.dataOut := rfl
@[simp] theorem fillFrom_ports (v : Bytes) (s : State) : (fillFrom v s).ports = { s.ports with enc := s.ports.enc + 1 } := rfl
@[simp] theorem fillFrom_bs (v : Bytes) (s : State) : (fillFrom v s).bs = s.bs := rfl
@[simp] theorem fillFrom_ks (v : Bytes) (s : State) : (fillFrom v s).ks = s.ks := rfl

@[simp] theorem Context.cleared_valid (bs : Nat) : (Context.cleared bs).valid = false := rfl
@[simp] theorem Context.cleared_mode (bs : Nat) : (Context.cleared bs).mode = none := rfl
@[simp] theorem Context.cleared_st (bs : Nat) : (Context.cleared bs).st = .zero := rfl
@[simp] theorem Context.cleared_iv (bs : Nat) : (Context.cleared bs).iv = zeros bs := rfl
@[simp] theorem Context.cleared_oldCipher (bs : Nat) : (Context.cleared bs).oldCipher = zeros bs := rfl
@[simp] theorem Context.cleared_segmentSize (bs : Nat) : (Context.cleared bs).segmentSize = 0 := rfl
@[simp] theorem Context.cleared_count (bs : Nat) : (Context.cleared bs).count = 0 := rfl
@[simp] theorem Context.cleared_csrc (bs : Nat) : (Context.cleared bs).csrc = .none := rfl
@[simp] theorem Context.cleared_prfMode (bs : Nat) : (Context.cleared bs).prfMode = false := rfl
@[simp] theorem Context.cleared_tmp (bs : Nat) : (Context.cleared bs).tmp = zeros bs := rfl

@[simp] theorem Generator.cleared_valid : Generator.cleared.valid = false := rfl
@[simp] theorem Generator.cleared_buf : Generator.cleared.buf = [] := rfl
@[simp] theorem Generator.cleared_p : Generator.cleared.p = 0 := rfl
@[simp] theorem Generator.cleared_n : Generator.cleared.n = 0 := rfl
@[simp] theorem Generator.cleared_q : Generator.cleared.q = 0 := rfl
@[simp] theorem Generator.cleared_endianness : Generator.cleared.endianness = .big := rfl
@[simp] theorem Generator.cleared_carry : Generator.cleared.carry = false := rfl
@[simp] theorem Generator.cleared_allowWraparound : Generator.cleared.allowWraparound = false := rfl
@[simp] theorem Generator.cleared_shortcutEnabled : Generator.cleared.shortcutEnabled = false := rfl

@[simp] theorem genIncrement_valid (g : Generator) : (genIncrement g).valid = g.valid := rfl
@[simp] theorem genIncrement_buf (g : Generator) : (genIncrement g).buf = genPrefix g ++ (incrementValue g.endianness (genValue g)).1 ++ genSuffix g := rfl
@[simp] theorem genIncrement_p (g : Generator) : (genIncrement g).p = g.p := rfl
@[simp] theorem genIncrement_n (g : Generator) : (genIncrement g).n = g.n := rfl
@[simp] theorem genIncrement_q (g : Generator) : (genIncrement g).q = g.q := rfl
@[simp] theorem genIncrement_endianness (g : Generator) : (genIncrement g).endianness = g.endianness := rfl
@[simp] theorem genIncrement_carry (g : Generator) : (genIncrement g).carry = (incrementValue g.endianness (genValue g)).2 := rfl
@[simp] theorem genIncrement_allowWraparound (g : Generator) : (genIncrement g).allowWraparound = g.allowWraparound := rfl
@[simp] theorem genIncrement_shortcutEnabled (g : Generator) : (genIncrement g).shortcutEnabled = g.shortcutEnabled := rfl

@[simp] theorem okStatus_eq : okStatus = 0#32 := by decide

end Sys2Proof.Machine
end

