-- ==== Sys2Proof/Laws/Counter.lean ====
section
/-! SUPPORT. The byte loop of the increment as arithmetic, and the views of the generator buffer. -/

namespace Sys2Proof.Machine

@[simp] theorem leNat_nil : leNat [] = 0 := rfl

@[simp] theorem leNat_cons (b : Byte) (v : Bytes) : leNat (b :: v) = b.toNat + 256 * leNat v := rfl

/-- Big-endian reading is little-endian reading of the reversed bytes (rule R15). -/
theorem beNat_eq_leNat_reverse (v : Bytes) : beNat v = leNat v.reverse := by
  have key : ∀ (v : Bytes) (acc : Nat),
      v.foldl (fun a x => a * 256 + x.toNat) acc
        = v.foldl (fun a x => x.toNat + 256 * a) acc := by
    intro v
    induction v with
    | nil => intro acc; rfl
    | cons x v ih =>
      intro acc
      simp only [List.foldl_cons]
      rw [ih]
      congr 1
      rw [Nat.mul_comm, Nat.add_comm]
  simp only [beNat, leNat, List.foldr_reverse, key]

theorem leNat_lt (v : Bytes) : leNat v < 256 ^ v.length := by
  induction v with
  | nil => simp
  | cons b v ih =>
    have hb : b.toNat < 256 := b.isLt
    rw [leNat_cons, List.length_cons, Nat.pow_succ]
    omega

@[simp] theorem rippleCarry_length (c : Nat) (v : Bytes) : (rippleCarry c v).1.length = v.length := by
  induction v generalizing c with
  | nil => rfl
  | cons b v ih => simp [rippleCarry, ih]

/-- The byte loop adds its carry-in: the new bytes and the carry out are the digits of the sum. -/
theorem rippleCarry_sum (c : Nat) (v : Bytes) :
    leNat (rippleCarry c v).1 + 256 ^ v.length * (rippleCarry c v).2 = leNat v + c := by
  induction v generalizing c with
  | nil => simp [rippleCarry]
  | cons b v ih =>
    have h := ih ((b.toNat + c) / 256)
    have hm := Nat.mod_add_div (b.toNat + c) 256
    simp only [rippleCarry, leNat_cons, List.length_cons, BitVec.toNat_ofNat]
    generalize hq : (b.toNat + c) / 256 = q at h hm ⊢
    generalize hr : (b.toNat + c) % 256 = r at hm ⊢
    have hr' : r % 2 ^ 8 = r := Nat.mod_eq_of_lt (by
      have : (b.toNat + c) % 256 < 256 := Nat.mod_lt _ (by decide)
      omega)
    rw [hr']
    have e : 256 ^ (v.length + 1) * (rippleCarry q v).2 = 256 * (256 ^ v.length * (rippleCarry q v).2) := by
      ring
    rw [e]
    omega

/-- A carry of at most one comes out of a carry of at most one. -/
theorem rippleCarry_carry_le (c : Nat) (v : Bytes) (h : c ≤ 1) : (rippleCarry c v).2 ≤ 1 := by
  induction v generalizing c with
  | nil => simpa [rippleCarry] using h
  | cons b v ih =>
    have hb : b.toNat < 256 := b.isLt
    exact ih _ (by omega)

/-- A carry out of the last byte leaves every byte zero. -/
theorem rippleCarry_wraps (v : Bytes) (h : (rippleCarry 1 v).2 = 1) :
    (rippleCarry 1 v).1 = zeros v.length := by
  induction v with
  | nil => rfl
  | cons b v ih =>
    have hb : b.toNat < 256 := b.isLt
    by_cases hc : (b.toNat + 1) / 256 = 1
    · have hm : (b.toNat + 1) % 256 = 0 := by omega
      simp only [rippleCarry, hc, hm] at h ⊢
      rw [ih h]
      rfl
    · have h0 : (b.toNat + 1) / 256 = 0 := by omega
      simp only [rippleCarry, h0] at h
      have hz : ∀ w : Bytes, (rippleCarry 0 w).2 = 0 := by
        intro w
        induction w with
        | nil => rfl
        | cons x w ihw =>
          have hx : x.toNat < 256 := x.isLt
          have : (x.toNat + 0) / 256 = 0 := by omega
          simp only [rippleCarry, this, ihw]
      rw [hz v] at h
      cases h

@[simp] theorem incrementValue_length (e : Endianness) (v : Bytes) :
    (incrementValue e v).1.length = v.length := by
  cases e <;> simp [incrementValue]

theorem incrementValue_wraps (e : Endianness) (v : Bytes) (h : (incrementValue e v).2 = true) :
    (incrementValue e v).1 = zeros v.length := by
  cases e with
  | big =>
    simp only [incrementValue, beq_iff_eq] at h ⊢
    rw [rippleCarry_wraps _ h]
    simp [zeros]
  | little =>
    simp only [incrementValue, beq_iff_eq] at h ⊢
    exact rippleCarry_wraps _ h

/-- `gen.buf = gen.prefix ‖ gen.value ‖ gen.suffix` (rule R43). -/
theorem genBuf_split (g : Generator) : genPrefix g ++ genValue g ++ genSuffix g = g.buf := by
  unfold genPrefix genValue genSuffix
  rw [List.append_assoc, ← List.drop_drop, List.take_append_drop, List.take_append_drop]

theorem genPrefix_length (g : Generator) (h : g.buf.length = genWidth g) : (genPrefix g).length = g.p := by
  simp only [genPrefix, List.length_take, h, genWidth]; omega

theorem genValue_length (g : Generator) (h : g.buf.length = genWidth g) : (genValue g).length = g.n := by
  simp only [genValue, List.length_take, List.length_drop, h, genWidth]; omega

theorem genSuffix_length (g : Generator) (h : g.buf.length = genWidth g) : (genSuffix g).length = g.q := by
  simp only [genSuffix, List.length_drop, h, genWidth]; omega

/-- What the increment leaves in the three parts of the buffer and its width (rule R221): "the increment
never touches `prefix` or `suffix`". -/
theorem genIncrement_parts (g : Generator) (h : g.buf.length = genWidth g) :
    genPrefix (genIncrement g) = genPrefix g ∧
    genValue (genIncrement g) = (incrementValue g.endianness (genValue g)).1 ∧
    genSuffix (genIncrement g) = genSuffix g ∧
    (genIncrement g).buf.length = genWidth (genIncrement g) := by
  have hp := genPrefix_length g h
  have hv : (incrementValue g.endianness (genValue g)).1.length = g.n := by
    rw [incrementValue_length, genValue_length g h]
  have hq := genSuffix_length g h
  refine ⟨?_, ?_, ?_, ?_⟩
  · unfold genPrefix at hp ⊢
    simp only [genIncrement_buf, genIncrement_p]
    rw [List.append_assoc]
    exact List.take_left' hp
  · unfold genValue at hv ⊢
    simp only [genIncrement_buf, genIncrement_p, genIncrement_n]
    rw [List.append_assoc, List.drop_left' hp]
    exact List.take_left' hv
  · unfold genSuffix at hq ⊢
    simp only [genIncrement_buf, genIncrement_p, genIncrement_n]
    exact List.drop_left' (by rw [List.length_append, hp, hv])
  · simp only [genIncrement_buf, List.length_append, hp, hv, hq, genWidth, genIncrement_p, genIncrement_n,
      genIncrement_q]

end Sys2Proof.Machine
end

