-- ==== Sys2Proof/Laws/Encoding.lean ====
section
/-! SUPPORT. The fields of a header built from its fields, and one operand read back from its serial form. -/

namespace Sys2Proof

theorem makeHeader_toNat (opc : Byte) (csrc : BitVec 2) (arg : Byte) :
    (makeHeader opc csrc arg).toNat = opc.toNat * 2 ^ 24 + csrc.toNat * 2 ^ 8 + arg.toNat := by
  show (opc ++ 0#14 ++ csrc ++ arg : BitVec (8 + 14 + 2 + 8)).toNat = _
  rw [BitVec.toNat_append, BitVec.toNat_append, BitVec.toNat_append,
    ← Nat.shiftLeft_add_eq_or_of_lt arg.isLt, ← Nat.shiftLeft_add_eq_or_of_lt csrc.isLt]
  simp only [BitVec.toNat_ofNat, Nat.zero_mod, Nat.or_zero, Nat.shiftLeft_eq]
  ring

/-- `OPC` of a built header (rule R85). -/
@[simp] theorem headerOpc_makeHeader (opc : Byte) (csrc : BitVec 2) (arg : Byte) :
    headerOpc (makeHeader opc csrc arg) = opc := by
  apply BitVec.eq_of_toNat_eq
  have hc := csrc.isLt
  have ha := arg.isLt
  have ho := opc.isLt
  simp only [headerOpc, BitVec.extractLsb'_toNat, makeHeader_toNat, Nat.shiftRight_eq_div_pow]
  omega

/-- `CSRC` of a built header (rule R85). -/
@[simp] theorem headerCsrc_makeHeader (opc : Byte) (csrc : BitVec 2) (arg : Byte) :
    headerCsrc (makeHeader opc csrc arg) = csrc := by
  apply BitVec.eq_of_toNat_eq
  have hc := csrc.isLt
  have ha := arg.isLt
  simp only [headerCsrc, BitVec.extractLsb'_toNat, makeHeader_toNat, Nat.shiftRight_eq_div_pow]
  omega

/-- `ARG` of a built header (rule R85). -/
@[simp] theorem headerArg_makeHeader (opc : Byte) (csrc : BitVec 2) (arg : Byte) :
    headerArg (makeHeader opc csrc arg) = arg := by
  apply BitVec.eq_of_toNat_eq
  have ha := arg.isLt
  simp only [headerArg, BitVec.extractLsb'_toNat, makeHeader_toNat, Nat.shiftRight_eq_div_pow]
  omega

/-- A word read back from its four bytes (rule R65). -/
@[simp] theorem readWord_be32 (w : Word) (rest : Bytes) : readWord (be32 w ++ rest) = some (w, rest) := by
  have h : w.extractLsb' 24 8 ++ w.extractLsb' 16 8 ++ w.extractLsb' 8 8 ++ w.extractLsb' 0 8 = w := by
    rw [BitVec.extractLsb'_append_extractLsb'_eq_extractLsb' (by rfl),
      BitVec.extractLsb'_append_extractLsb'_eq_extractLsb' (by rfl),
      BitVec.extractLsb'_append_extractLsb'_eq_extractLsb' (by rfl)]
    exact BitVec.extractLsb'_eq_self
  simp only [be32, List.cons_append, List.nil_append, readWord, Option.some.injEq, Prod.mk.injEq, and_true]
  exact h

/-- A well-formed operand read back from its serial form, with whatever follows it (rule R87). -/
theorem readOperand_operandBytes (o : Operand) (rest : Bytes) (h : o.wellFormed = true) :
    readOperand (operandKindOf o) (operandBytes o ++ rest) = some (o, rest) := by
  cases o with
  | word w => simp [operandKindOf, operandBytes, readOperand]
  | bytes b =>
    have hl : b.length < 2 ^ 32 := by simpa [Operand.wellFormed, fitsLen] using h
    have hn : (BitVec.ofNat 32 b.length).toNat = b.length := by
      rw [BitVec.toNat_ofNat]; exact Nat.mod_eq_of_lt hl
    simp only [operandKindOf, operandBytes, readOperand, List.append_assoc, readWord_be32, hn]
    rw [if_neg (by simp), List.take_left' rfl, List.drop_left' rfl]

/-- The operands of a command are well formed when the command is. -/
theorem encodeOperands_wellFormed (i : Instr) (h : i.wellFormed = true) :
    ∀ o ∈ encodeOperands i, o.wellFormed = true := by
  cases i <;> simp_all [encodeOperands, Instr.wellFormed, Operand.wellFormed]

end Sys2Proof
end

