-- ==== Sys2Proof/Laws/Ops.lean ====
section
/-! SUPPORT. What each shared operation can do, said once: ending a command, the loop over units, the data
phase of `ENCRYPT` and `DECRYPT`, and the reads. -/

namespace Sys2Proof.Machine

theorem respond_eq_answered (r : Response) (s : State) : respond r s = answered s r.status r.result := rfl

theorem complete_eq_answered (res : Bytes) (s : State) : complete res s = answered s 0 res := by
  simp only [complete, respond_eq_answered, okStatus_eq]
  rfl

theorem raiseStatus_eq_answered (cls cause : Byte) (s : State) :
    raiseStatus cls cause s = answered s (statusWord cls cause) [] := rfl

theorem raise_eq_answered (c : Cause) (s : State) :
    raise c s = answered s (statusWord (causeClass c) (causeCode c)) [] := rfl

/-- The status word as a number: `CLASS | CAUSE << 8` (rules R97, R236). -/
theorem statusWord_toNat (cls cause : Byte) : (statusWord cls cause).toNat = cause.toNat * 256 + cls.toNat := by
  show (0#16 ++ cause ++ cls : BitVec (16 + 8 + 8)).toNat = _
  rw [BitVec.toNat_append, BitVec.toNat_append, ← Nat.shiftLeft_add_eq_or_of_lt cls.isLt]
  simp [Nat.shiftLeft_eq]

/-- A status word is `OK` only for class 0 and cause 0. -/
theorem statusWord_eq_zero_iff (cls cause : Byte) : statusWord cls cause = 0 ↔ cls = 0 ∧ cause = 0 := by
  constructor
  · intro h
    have hn := statusWord_toNat cls cause
    rw [h] at hn
    simp only [BitVec.ofNat_eq_ofNat, BitVec.toNat_ofNat, Nat.zero_mod] at hn
    exact ⟨BitVec.eq_of_toNat_eq (by simp; omega), BitVec.eq_of_toNat_eq (by simp; omega)⟩
  · rintro ⟨rfl, rfl⟩
    decide

/-- No cause of rule R236 has the status word of `OK`. -/
theorem causeStatus_ne_zero (c : Cause) : statusWord (causeClass c) (causeCode c) ≠ 0 := by
  cases c <;> decide

/-! ## The loop over units -/

@[simp] theorem runUnits_nil {α : Type} (unit : State → α → State × Bytes) (s : State) :
    runUnits unit [] s = s := rfl

@[simp] theorem runUnits_cons {α : Type} (unit : State → α → State × Bytes) (u : α) (us : List α) (s : State) :
    runUnits unit (u :: us) s = runUnits unit us (writeOut (unit s u).2 (unit s u).1) := rfl

/-- Running two lists of units one after the other is running their concatenation (rule R139). -/
theorem runUnits_append {α : Type} (unit : State → α → State × Bytes) (us vs : List α) (s : State) :
    runUnits unit (us ++ vs) s = runUnits unit vs (runUnits unit us s) := by
  induction us generalizing s with
  | nil => rfl
  | cons u us ih => simp [ih]

/-- Whatever one unit of the list keeps, with its output written, the loop keeps. -/
theorem runUnits_keeps {α : Type} (P : State → Prop) (unit : State → α → State × Bytes) (us : List α)
    (h : ∀ s, ∀ u ∈ us, P s → P (writeOut (unit s u).2 (unit s u).1)) (s : State) (hs : P s) :
    P (runUnits unit us s) := by
  induction us generalizing s with
  | nil => exact hs
  | cons u us ih =>
    exact ih (fun s v hv => h s v (List.mem_cons_of_mem _ hv)) _ (h s u List.mem_cons_self hs)

/-! ## The data phase -/

/-- Everything the data phase of `ENCRYPT` and `DECRYPT` can do when it answers a next state. -/
theorem dataPhase_cases (v : Mode → State → State) (buf : Bytes) (s t : State)
    (h : dataPhase v buf s = .next t) :
    (buf = [] ∧ t = complete [] s) ∨
    (buf ≠ [] ∧ ∃ c, lengthCause s.ctx s.bs buf.length = some c ∧ t = raise c s) ∨
    (buf ≠ [] ∧ lengthCause s.ctx s.bs buf.length = none ∧
      allocFails s.params.bufCap buf.length = true ∧ t = raise .allocFailed s) ∨
    (buf ≠ [] ∧ lengthCause s.ctx s.bs buf.length = none ∧
      allocFails s.params.bufCap buf.length = false ∧
      ∃ m, s.ctx.mode = some m ∧ t = v m (allocate buf s)) := by
  unfold dataPhase at h
  split at h
  · next hb => exact .inl ⟨hb, by cases h; rfl⟩
  · next hb =>
    split at h
    · next c hc => exact .inr (.inl ⟨hb, c, hc, by cases h; rfl⟩)
    · next hc =>
      split at h
      · next ha => exact .inr (.inr (.inl ⟨hb, hc, ha, by cases h; rfl⟩))
      · next ha =>
        split at h
        · next m hm => exact .inr (.inr (.inr ⟨hb, hc, by simpa using ha, m, hm, by cases h; rfl⟩))
        · cases h

/-- The data phase runs the variant of the mode on a good non-empty buffer. -/
theorem dataPhase_runs (v : Mode → State → State) (buf : Bytes) (s : State) (m : Mode) (hb : buf ≠ [])
    (hm : s.ctx.mode = some m) (hl : lengthCause s.ctx s.bs buf.length = none)
    (ha : allocFails s.params.bufCap buf.length = false) :
    dataPhase v buf s = .next (v m (allocate buf s)) := by
  simp [dataPhase, hb, hm, hl, ha]

/-- Everything an introspection command can do. -/
theorem contextRead_cases (res : Bytes) (s t : State) (h : contextRead res s = .next t) :
    (s.ctx.valid = false ∧ t = raise .noContext s) ∨ (s.ctx.valid = true ∧ t = complete res s) := by
  unfold contextRead at h
  split at h
  · next hv => exact .inl ⟨hv, by cases h; rfl⟩
  · next hv => exact .inr ⟨by simpa using hv, by cases h; rfl⟩

/-- Everything an inspection of the generator can do. -/
theorem generatorRead_cases (res : Bytes) (s t : State) (h : generatorRead res s = .next t) :
    (s.gen.valid = false ∧ t = raise .noGenerator s) ∨ (s.gen.valid = true ∧ t = complete res s) := by
  unfold generatorRead at h
  split at h
  · next hv => exact .inl ⟨hv, by cases h; rfl⟩
  · next hv => exact .inr ⟨by simpa using hv, by cases h; rfl⟩

/-- Everything the construction of a generator can do. -/
theorem genConstruct_cases (e : Endianness) (aw ds : Bool) (pfx sfx initial : Bytes) (s t : State)
    (h : genConstruct e aw ds pfx sfx initial s = .next t) :
    (s.gen.valid = true ∧ t = raise .slotBusy s) ∨
    (s.gen.valid = false ∧ genParamBad pfx sfx initial = true ∧ t = raise .badCounterParam s) ∨
    (s.gen.valid = false ∧ genParamBad pfx sfx initial = false ∧
      t = complete [] (s.withGen (newGenerator e aw ds pfx sfx initial))) := by
  unfold genConstruct at h
  split at h
  · next hv => exact .inl ⟨hv, by cases h; rfl⟩
  · next hv =>
    split at h
    · next hb => exact .inr (.inl ⟨by simpa using hv, hb, by cases h; rfl⟩)
    · next hb => exact .inr (.inr ⟨by simpa using hv, by simpa using hb, by cases h; rfl⟩)

/-- Everything `CTX_NEW` can do. -/
theorem execCtxNew_cases (mode : Byte) (csrc : CounterSource) (key iv : Bytes) (seg : Word) (s t : State)
    (h : execCtxNew mode csrc key iv seg s = .next t) :
    (∃ c, ctxNewCause mode csrc key iv seg s = some c ∧ t = raise c s) ∨
    (ctxNewCause mode csrc key iv seg s = none ∧ cipherInit s.params.cipher key = none ∧
      t = raise .badKeyLength s.noteInit) ∨
    (ctxNewCause mode csrc key iv seg s = none ∧ ∃ st, cipherInit s.params.cipher key = some st ∧
      t = complete [] (s.noteInit.withCtx (newContext mode csrc st iv seg s))) := by
  unfold execCtxNew at h
  split at h
  · next c hc => exact .inl ⟨c, hc, by cases h; rfl⟩
  · next hc =>
    split at h
    · next hi => exact .inr (.inl ⟨hc, hi, by cases h; rfl⟩)
    · next st hi => exact .inr (.inr ⟨hc, st, hi, by cases h; rfl⟩)

/-- What passing checks 0 to 6 of `CTX_NEW` means (rules R111 to R116). -/
theorem ctxNewCause_none (mode : Byte) (csrc : CounterSource) (key iv : Bytes) (seg : Word) (s : State)
    (h : ctxNewCause mode csrc key iv seg s = none) :
    s.ctx.valid = false ∧ keyLengthBad s.ks key.length = false ∧ (iv.length = 0 ∨ iv.length = s.bs) ∧
    ∃ m, modeOfNumber mode = some m ∧ (m = .pgp → 8 ≤ s.bs) ∧
      (m = .cfb → segmentSizeOk (segOf seg) s.bs = true) ∧ (m = .ctr ↔ csrc ≠ .none) ∧
      (csrc = .engine → s.gen.valid = true) := by
  unfold ctxNewCause at h
  split_ifs at h with h1 h2 h3
  refine ⟨by simpa using h1, by simpa using h2, by omega, ?_⟩
  split at h
  · cases h
  · next m hm =>
    refine ⟨m, hm, ?_⟩
    unfold modeCause at h
    split_ifs at h with h4 h5 h6 h7 h8
    refine ⟨?_, ?_, ?_, ?_⟩
    · intro hp; by_contra hlt; exact h4 ⟨hp, by omega⟩
    · intro hc; by_contra hb; exact h5 ⟨hc, by simpa using hb⟩
    · exact ⟨fun hm hc => h6 ⟨hm, hc⟩, fun hc => by by_contra hm; exact h7 ⟨hm, hc⟩⟩
    · intro he; by_contra hg; exact h8 ⟨he, by simpa using hg⟩

/-- The two outcomes of running a transaction. -/
theorem runTransaction_cases (t : Transaction) (s : State) :
    (∃ e, decode t = .error e ∧ runTransaction t s = .next (raise .illegalCommand s)) ∨
    (∃ i, decode t = .ok i ∧ runTransaction t s = exec i s) := by
  unfold runTransaction
  cases h : decode t with
  | error e => exact .inl ⟨e, rfl, rfl⟩
  | ok i => exact .inr ⟨i, rfl, rfl⟩

/-- Everything a step can do when it answers a next state. -/
theorem step_cases (s t : State) (h : step s = .next t) :
    (s.stage = .idle ∧ s.cmdPort = [] ∧ t = s) ∨
    (s.stage = .idle ∧ ∃ tr rest, s.cmdPort = tr :: rest ∧ runTransaction tr (accept rest s) = .next t) ∨
    (s.stage = .refillWait ∧ t = resumeRefill s) := by
  unfold step at h
  split at h
  · next hst =>
    split at h
    · next hp => exact .inl ⟨hst, hp, by cases h; rfl⟩
    · next tr rest hp => exact .inr (.inl ⟨hst, tr, rest, hp, h⟩)
  · next hst => exact .inr (.inr ⟨hst, by cases h; rfl⟩)
  all_goals cases h

end Sys2Proof.Machine
end

