-- ==== Sys2Proof/Laws/PerInstr.lean ====
section
/-! SUPPORT. Per-instruction facts about the encoding, one lemma per constructor of `Instr`. -/

namespace Sys2Proof.Laws

/-- The encoded header of the command is one its row of rule R89 selects: `header AND mask = match`. -/
def HeaderSelected.Statement (i : Instr) : Prop := opcodeSelects (opcodeOf i) (encodeHeader i) = true

/-- The encoded operands of the command have the kinds rule R88 lists, in order. -/
def OperandsListed.Statement (i : Instr) : Prop :=
  (encodeOperands i).map operandKindOf = operandKinds (opcodeOf i)

/-- Every `MODE` with every defined `CSRC` makes a header of the `CTX_NEW` row. -/
theorem ctxNew_header_selected (c : BitVec 2) (m : Byte) :
    opcodeSelects .ctxNew (makeHeader 0x10 c m) = true := by
  revert c m
  decide

theorem HeaderSelected.ctxNew (mode : Byte) (csrc : CounterSource) (key iv : Bytes) (seg : Word) : HeaderSelected.Statement (.ctxNew mode csrc key iv seg) :=
  ctxNew_header_selected (csrcNumber csrc) mode

theorem HeaderSelected.encrypt (buf : Bytes) : HeaderSelected.Statement (.encrypt buf) :=
  by
  show opcodeSelects .encrypt (makeHeader (opcodeNumber .encrypt) 0 0) = true
  decide

theorem HeaderSelected.decrypt (buf : Bytes) : HeaderSelected.Statement (.decrypt buf) :=
  by
  show opcodeSelects .decrypt (makeHeader (opcodeNumber .decrypt) 0 0) = true
  decide

theorem HeaderSelected.sync : HeaderSelected.Statement .sync :=
  by unfold HeaderSelected.Statement; decide

theorem HeaderSelected.setPrf (v : Bool) : HeaderSelected.Statement (.setPrf v) :=
  by unfold HeaderSelected.Statement; cases v <;> decide

theorem HeaderSelected.getIv : HeaderSelected.Statement .getIv :=
  by unfold HeaderSelected.Statement; decide

theorem HeaderSelected.getMode : HeaderSelected.Statement .getMode :=
  by unfold HeaderSelected.Statement; decide

theorem HeaderSelected.getBlockSize : HeaderSelected.Statement .getBlockSize :=
  by unfold HeaderSelected.Statement; decide

theorem HeaderSelected.getKeySize : HeaderSelected.Statement .getKeySize :=
  by unfold HeaderSelected.Statement; decide

theorem HeaderSelected.ctxDestroy : HeaderSelected.Statement .ctxDestroy :=
  by unfold HeaderSelected.Statement; decide

theorem HeaderSelected.genNewBe (aw ds : Bool) (pfx sfx initial : Bytes) : HeaderSelected.Statement (.genNewBe aw ds pfx sfx initial) :=
  by
  show opcodeSelects .genNewBe (makeHeader (opcodeNumber .genNewBe) 0 (genArg aw ds)) = true
  cases aw <;> cases ds <;> decide

theorem HeaderSelected.genNewLe (aw ds : Bool) (pfx sfx initial : Bytes) : HeaderSelected.Statement (.genNewLe aw ds pfx sfx initial) :=
  by
  show opcodeSelects .genNewLe (makeHeader (opcodeNumber .genNewLe) 0 (genArg aw ds)) = true
  cases aw <;> cases ds <;> decide

theorem HeaderSelected.genInvoke : HeaderSelected.Statement .genInvoke :=
  by unfold HeaderSelected.Statement; decide

theorem HeaderSelected.genNextValue : HeaderSelected.Statement .genNextValue :=
  by unfold HeaderSelected.Statement; decide

theorem HeaderSelected.genGetCarry : HeaderSelected.Statement .genGetCarry :=
  by unfold HeaderSelected.Statement; decide

theorem HeaderSelected.genDestroy : HeaderSelected.Statement .genDestroy :=
  by unfold HeaderSelected.Statement; decide

theorem OperandsListed.ctxNew (mode : Byte) (csrc : CounterSource) (key iv : Bytes) (seg : Word) : OperandsListed.Statement (.ctxNew mode csrc key iv seg) := rfl

theorem OperandsListed.encrypt (buf : Bytes) : OperandsListed.Statement (.encrypt buf) := rfl

theorem OperandsListed.decrypt (buf : Bytes) : OperandsListed.Statement (.decrypt buf) := rfl

theorem OperandsListed.sync : OperandsListed.Statement .sync := rfl

theorem OperandsListed.setPrf (v : Bool) : OperandsListed.Statement (.setPrf v) := rfl

theorem OperandsListed.getIv : OperandsListed.Statement .getIv := rfl

theorem OperandsListed.getMode : OperandsListed.Statement .getMode := rfl

theorem OperandsListed.getBlockSize : OperandsListed.Statement .getBlockSize := rfl

theorem OperandsListed.getKeySize : OperandsListed.Statement .getKeySize := rfl

theorem OperandsListed.ctxDestroy : OperandsListed.Statement .ctxDestroy := rfl

theorem OperandsListed.genNewBe (aw ds : Bool) (pfx sfx initial : Bytes) : OperandsListed.Statement (.genNewBe aw ds pfx sfx initial) := rfl

theorem OperandsListed.genNewLe (aw ds : Bool) (pfx sfx initial : Bytes) : OperandsListed.Statement (.genNewLe aw ds pfx sfx initial) := rfl

theorem OperandsListed.genInvoke : OperandsListed.Statement .genInvoke := rfl

theorem OperandsListed.genNextValue : OperandsListed.Statement .genNextValue := rfl

theorem OperandsListed.genGetCarry : OperandsListed.Statement .genGetCarry := rfl

theorem OperandsListed.genDestroy : OperandsListed.Statement .genDestroy := rfl

end Sys2Proof.Laws
end

