-- ==== Sys2Proof/Laws/Refill.lean ====
section
/-! SUPPORT. What a CTR refill and the CTR byte loop can do, said once. -/

namespace Sys2Proof.Machine

/-- Everything an answer of the external source can lead to (rule R195). -/
theorem acceptReply_cases (r : CounterReply) (s : State) :
    (r.cls ≠ 0 ∧ acceptReply r s = .raised r.cls r.cause s) ∨
    (r.cls = 0 ∧ (r.isBytes = false ∨ r.data.length ≠ s.bs) ∧ acceptReply r s = .fails .counterShape s) ∨
    (r.cls = 0 ∧ r.isBytes = true ∧ r.data.length = s.bs ∧ acceptReply r s = .filled (fillFrom r.data s)) := by
  unfold acceptReply
  split_ifs with h1 h2 h3
  · exact .inl ⟨h1, rfl⟩
  · exact .inr (.inl ⟨by simpa using h1, .inl h2, rfl⟩)
  · exact .inr (.inl ⟨by simpa using h1, .inr h3, rfl⟩)
  · exact .inr (.inr ⟨by simpa using h1, by simpa using h2, by simpa using h3, rfl⟩)

/-- Everything a shortcut refill can lead to (rule R193). -/
theorem shortcutRefill_cases (s : State) :
    (genBlocked s.gen = true ∧ shortcutRefill s = .fails .counterWrapped s) ∨
    (genBlocked s.gen = false ∧ genWidth s.gen ≠ s.bs ∧ shortcutRefill s = .fails .counterShape s) ∨
    (genBlocked s.gen = false ∧ genWidth s.gen = s.bs ∧
      shortcutRefill s = .filled ((fillFrom s.gen.buf s).withGen (genIncrement s.gen))) := by
  unfold shortcutRefill
  split_ifs with h1 h2
  · exact .inl ⟨h1, rfl⟩
  · exact .inr (.inl ⟨by simpa using h1, h2, rfl⟩)
  · exact .inr (.inr ⟨by simpa using h1, by simpa using h2, rfl⟩)

/-- Everything a generic refill on the engine can lead to (rule R194). -/
theorem genericRefill_cases (s : State) :
    (genBlocked s.gen = true ∧ genericRefill s = .fails .counterWrapped s) ∨
    (genBlocked s.gen = false ∧ s.gen.buf.length ≠ s.bs ∧
      genericRefill s = .fails .counterShape (s.withGen (genIncrement s.gen))) ∨
    (genBlocked s.gen = false ∧ s.gen.buf.length = s.bs ∧
      genericRefill s = .filled (fillFrom s.gen.buf (s.withGen (genIncrement s.gen)))) := by
  unfold genericRefill
  split_ifs with h1 h2
  · exact .inl ⟨h1, rfl⟩
  · exact .inr (.inl ⟨by simpa using h1, h2, rfl⟩)
  · exact .inr (.inr ⟨by simpa using h1, by simpa using h2, rfl⟩)

/-- A refill that fills changes `iv`, the value and carry of the generator, the answers still to come and the
request counts, and fills `iv` with `E` of a block of `BS` bytes. -/
def FilledFrom (s u : State) : Prop :=
  (∃ v : Bytes, v.length = s.bs ∧ u.ctx = s.ctx.withIv (cipherEnc s.ctx.st v)) ∧
  (u.gen = s.gen ∨ u.gen = genIncrement s.gen) ∧
  u.params = s.params ∧ u.stage = s.stage ∧ u.pos = s.pos ∧ u.inBuf = s.inBuf ∧ u.outBuf = s.outBuf ∧
  u.cmdPort = s.cmdPort ∧ u.dataOut = s.dataOut

/-- A refill that raises leaves the context as it was; the generator may have been advanced (rule R196). -/
def RaisedFrom (s u : State) : Prop :=
  u.ctx = s.ctx ∧ (u.gen = s.gen ∨ u.gen = genIncrement s.gen) ∧
  u.params = s.params ∧ u.stage = s.stage ∧ u.pos = s.pos ∧ u.inBuf = s.inBuf ∧ u.outBuf = s.outBuf ∧
  u.cmdPort = s.cmdPort ∧ u.dataOut = s.dataOut

/-- A refill that waits has sent its request to an external source that has no answer yet. -/
def WaitingFrom (s u : State) : Prop :=
  s.ctx.csrc = .external ∧ s.replies = [] ∧ u = s.noteCounter.withStage .refillWait

/-- Everything `refill_ctr` can lead to (rules R192 to R195), for a generator slot whose buffer has its
width. -/
theorem refillCtr_cases (s : State) (hw : s.gen.buf.length = genWidth s.gen) :
    (∃ u, refillCtr s = .filled u ∧ FilledFrom s u) ∨
    (∃ cls cause u, refillCtr s = .raised cls cause u ∧ statusWord cls cause ≠ 0 ∧ RaisedFrom s u) ∨
    (∃ u, refillCtr s = .waiting u ∧ WaitingFrom s u) := by
  have shape : statusWord (causeClass .counterShape) (causeCode .counterShape) ≠ 0 :=
    causeStatus_ne_zero .counterShape
  have wrapped : statusWord (causeClass .counterWrapped) (causeCode .counterWrapped) ≠ 0 :=
    causeStatus_ne_zero .counterWrapped
  unfold refillCtr
  split_ifs with hx hg hs
  · unfold externalRefill
    split
    · next hr => exact .inr (.inr ⟨_, rfl, hx, hr, rfl⟩)
    · next r rest hr =>
      rcases acceptReply_cases r (s.noteCounter.withReplies rest) with
        ⟨hc, he⟩ | ⟨_, _, he⟩ | ⟨_, _, hl, he⟩
      · refine .inr (.inl ⟨_, _, _, he, ?_, ?_⟩)
        · intro h0; exact hc ((statusWord_eq_zero_iff _ _).mp h0).1
        · exact ⟨rfl, .inl rfl, rfl, rfl, rfl, rfl, rfl, rfl, rfl⟩
      · exact .inr (.inl ⟨_, _, _, he, shape, rfl, .inl rfl, rfl, rfl, rfl, rfl, rfl, rfl, rfl⟩)
      · exact .inl ⟨_, he, ⟨r.data, hl, rfl⟩, .inl rfl, rfl, rfl, rfl, rfl, rfl, rfl, rfl⟩
  · exact .inr (.inl ⟨_, _, _, rfl, shape, rfl, .inl rfl, rfl, rfl, rfl, rfl, rfl, rfl, rfl⟩)
  · rcases shortcutRefill_cases s with ⟨_, he⟩ | ⟨_, _, he⟩ | ⟨_, hl, he⟩
    · exact .inr (.inl ⟨_, _, _, he, wrapped, rfl, .inl rfl, rfl, rfl, rfl, rfl, rfl, rfl, rfl⟩)
    · exact .inr (.inl ⟨_, _, _, he, shape, rfl, .inl rfl, rfl, rfl, rfl, rfl, rfl, rfl, rfl⟩)
    · exact .inl ⟨_, he, ⟨s.gen.buf, by rw [hw, hl], rfl⟩, .inr rfl, rfl, rfl, rfl, rfl, rfl, rfl, rfl⟩
  · rcases genericRefill_cases s with ⟨_, he⟩ | ⟨_, _, he⟩ | ⟨_, hl, he⟩
    · exact .inr (.inl ⟨_, _, _, he, wrapped, rfl, .inl rfl, rfl, rfl, rfl, rfl, rfl, rfl, rfl⟩)
    · exact .inr (.inl ⟨_, _, _, he, shape, rfl, .inr rfl, rfl, rfl, rfl, rfl, rfl, rfl, rfl⟩)
    · exact .inl ⟨_, he, ⟨s.gen.buf, hl, rfl⟩, .inr rfl, rfl, rfl, rfl, rfl, rfl, rfl, rfl⟩

/-- The ways one byte of the loop can start, with keystream at hand or at a refill (rule R190). -/
theorem ctrReady_cases (s : State) (hw : s.gen.buf.length = genWidth s.gen) :
    (s.ctx.count ≠ s.bs ∧ ctrReady s = .filled s) ∨
    (s.ctx.count = s.bs ∧ ∃ u, FilledFrom s u ∧
      ctrReady s = .filled (u.withCtx (u.ctx.withCount 0))) ∨
    (s.ctx.count = s.bs ∧ ∃ cls cause u, statusWord cls cause ≠ 0 ∧ RaisedFrom s u ∧
      ctrReady s = .raised cls cause u) ∨
    (s.ctx.count = s.bs ∧ ∃ u, WaitingFrom s u ∧ ctrReady s = .waiting u) := by
  unfold ctrReady
  split_ifs with h
  · rcases refillCtr_cases s hw with ⟨u, he, hf⟩ | ⟨c, k, u, he, hne, hf⟩ | ⟨u, he, hf⟩
    · exact .inr (.inl ⟨h, u, hf, by rw [he]; rfl⟩)
    · exact .inr (.inr (.inl ⟨h, c, k, u, hne, hf, by rw [he]; rfl⟩))
    · exact .inr (.inr (.inr ⟨h, u, hf, by rw [he]; rfl⟩))
  · exact .inl ⟨h, rfl⟩

@[simp] theorem ctrRun_nil (s : State) : ctrRun [] s = finishRun s := rfl

theorem ctrRun_filled (b : Byte) (rest : Bytes) (s u : State) (h : ctrReady s = .filled u) :
    ctrRun (b :: rest) s = ctrRun rest (ctrByte b u) := by
  simp [ctrRun, h]

theorem ctrRun_raised (b : Byte) (rest : Bytes) (s u : State) (cls cause : Byte)
    (h : ctrReady s = .raised cls cause u) : ctrRun (b :: rest) s = raiseStatus cls cause u := by
  simp [ctrRun, h]

theorem ctrRun_waiting (b : Byte) (rest : Bytes) (s u : State) (h : ctrReady s = .waiting u) :
    ctrRun (b :: rest) s = u := by
  simp [ctrRun, h]

/-- How the byte loop ends, for a property `P` of the state before a byte that every byte keeps: the buffer
is used up, or a refill raised or waits, in a state `u` with `P u`, the bytes of `IN` not yet processed
being `left`. -/
theorem ctrRun_cases (P : Bytes → State → Prop)
    (keeps : ∀ b rest s u, P (b :: rest) s → ctrReady s = .filled u → P rest (ctrByte b u))
    (input : Bytes) (s : State) (h : P input s) :
    (∃ u, P [] u ∧ ctrRun input s = finishRun u) ∨
    (∃ b left u cls cause u', P (b :: left) u ∧ ctrReady u = .raised cls cause u' ∧
      ctrRun input s = raiseStatus cls cause u') ∨
    (∃ b left u u', P (b :: left) u ∧ ctrReady u = .waiting u' ∧ ctrRun input s = u') := by
  induction input generalizing s with
  | nil => exact .inl ⟨s, h, rfl⟩
  | cons b rest ih =>
    cases hr : ctrReady s with
    | filled u =>
      rw [ctrRun_filled b rest s u hr]
      exact ih _ (keeps b rest s u h hr)
    | raised cls cause u =>
      exact .inr (.inl ⟨b, rest, s, cls, cause, u, h, hr, ctrRun_raised b rest s u cls cause hr⟩)
    | waiting u =>
      exact .inr (.inr ⟨b, rest, s, u, h, hr, ctrRun_waiting b rest s u hr⟩)

end Sys2Proof.Machine
end

