-- ==== Sys2Proof/Tests/Slice0.lean ====
section
/-! SUPPORT. Tests of the model: the well-formedness checks, every command's encoding written out from
`30_encoding.md`, the worked examples and vectors of the spec with its toy cipher, the first step from reset,
and for every statement with hypotheses a concrete state that meets them. Expected values are the spec's. -/

open Sys2Proof Sys2Proof.Machine Sys2Proof.Spec

namespace Sys2Proof.Tests

/-! ## Small states -/

/-- The key `1011121314151617` of the spec's examples. -/
def key8 : Bytes := [0x10, 0x11, 0x12, 0x13, 0x14, 0x15, 0x16, 0x17]

/-- The register `a0a1a2a3a4a5a6a7` of the spec's examples. -/
def iv8 : Bytes := [0xa0, 0xa1, 0xa2, 0xa3, 0xa4, 0xa5, 0xa6, 0xa7]

/-- Sixteen bytes `00 .. 0f`. -/
def data16 : Bytes := [0, 1, 2, 3, 4, 5, 6, 7, 8, 9, 10, 11, 12, 13, 14, 15]

/-- A context in mode `m` under the toy cipher, as `CTX_NEW` leaves it with `iv8` (rule R118). -/
def ctxOf (m : Mode) : Context :=
  { valid := true
    mode := some m
    st := .toy key8
    iv := iv8
    oldCipher := zeros 8
    segmentSize := 8
    count := initialCount (some m) 8
    csrc := if m = .ctr then .engine else .none
    prfMode := false
    tmp := zeros 8 }

/-- The generator of rule R198. -/
def genOf : Generator :=
  { valid := true
    buf := [0xc0, 0xc1, 0xc2, 0xff, 0xfe, 0xe0, 0xe1, 0xe2]
    p := 3
    n := 2
    q := 3
    endianness := .big
    carry := false
    allowWraparound := false
    shortcutEnabled := true }

/-- That generator after the invocation that returned its last value. -/
def genSpent : Generator := { genOf with buf := [0xc0, 0xc1, 0xc2, 0, 0, 0xe0, 0xe1, 0xe2], carry := true }

/-- A generator of two bytes, too narrow for a block of eight (rule R199). -/
def genNarrow : Generator := { genOf with buf := [0, 0], p := 0, q := 0 }

/-- The block with `BS = KS = 8` and the toy cipher, holding these slots, idle. -/
def mk (c : Context) (g : Generator) : State :=
  { params := { blockSize := 8, keySize := 8, bufCap := none, pgpFull := .eight, cipher := .toy }
    ctx := c
    gen := g
    stage := .idle
    pos := 0
    inBuf := []
    outBuf := []
    cmdPort := []
    replies := []
    dataOut := []
    ports := { init := 0, enc := 0, dec := 0, counter := 0 } }

/-- The same block with both slots empty. -/
def empty8 : State := mk (Context.cleared 8) Generator.cleared

/-- A context in mode `m`, no generator. -/
def inMode (m : Mode) : State := mk (ctxOf m) Generator.cleared

/-- A CTR context on the generator of rule R198. -/
def inCtr : State := mk (ctxOf .ctr) genOf

/-- A good answer of the external source. -/
def goodReply (b : Byte) : CounterReply := { cls := 0, cause := 0, isBytes := true, data := [0, 0, 0, 0, 0, 0, 0, b] }

/-- A CTR context on the external source, with these answers to come. -/
def inExternal (r : List CounterReply) : State :=
  { mk { ctxOf .ctr with csrc := .external } Generator.cleared with replies := r }

/-- That context waiting at its first byte, in `ENCRYPT` of two bytes. -/
def waiting (r : List CounterReply) : State :=
  { inExternal r with stage := .refillWait, inBuf := [0, 1] }

/-- The state a step or a meaning answers, if it answers one. -/
def nextOf (o : Out) : Option State :=
  match o with
  | .next s => some s
  | .fault _ => none
  | .refused _ => none

/-- The last response sent, as status word and result. -/
def answerOf (o : Out) : Option (Word × Bytes) :=
  ((nextOf o).bind fun s => s.dataOut.getLast?).map fun r => (r.status, r.result)

/-- A part of the context after an answer. -/
def ctxAfter {α : Type} (f : Context → α) (o : Out) : Option α := (nextOf o).map fun s => f s.ctx

/-- A part of the generator after an answer. -/
def genAfter {α : Type} (f : Generator → α) (o : Out) : Option α := (nextOf o).map fun s => f s.gen

/-! ## Well-formedness: an ill-formed term for each check -/

/-- A byte string one byte longer than its length field can say. -/
def tooLong : Bytes := List.replicate (2 ^ 32) 0

theorem tooLong_length : tooLong.length = 2 ^ 32 := List.length_replicate

theorem test_fitsLen_refuses : fitsLen tooLong = false := by
  simp only [fitsLen, tooLong_length, Nat.lt_irrefl, decide_false]

theorem test_wellFormed_operand : (Operand.bytes tooLong).wellFormed = false := test_fitsLen_refuses

theorem test_wellFormed_ctxNew :
    (Instr.ctxNew 2 .none tooLong [] 0).wellFormed = false ∧
    (Instr.ctxNew 2 .none [] tooLong 0).wellFormed = false := by
  constructor <;> simp only [Instr.wellFormed, test_fitsLen_refuses, Bool.false_and, Bool.and_false]

theorem test_wellFormed_encrypt_decrypt :
    (Instr.encrypt tooLong).wellFormed = false ∧ (Instr.decrypt tooLong).wellFormed = false :=
  ⟨test_fitsLen_refuses, test_fitsLen_refuses⟩

theorem test_wellFormed_genNew :
    (Instr.genNewBe false false tooLong [] [1]).wellFormed = false ∧
    (Instr.genNewBe false false [] tooLong [1]).wellFormed = false ∧
    (Instr.genNewBe false false [] [] tooLong).wellFormed = false ∧
    (Instr.genNewLe false false tooLong [] [1]).wellFormed = false ∧
    (Instr.genNewLe false false [] tooLong [1]).wellFormed = false ∧
    (Instr.genNewLe false false [] [] tooLong).wellFormed = false := by
  refine ⟨?_, ?_, ?_, ?_, ?_, ?_⟩ <;>
    simp only [Instr.wellFormed, test_fitsLen_refuses, Bool.false_and, Bool.and_false]

theorem test_wellFormed_accepts :
    (Instr.ctxNew 2 .none key8 [] 0).wellFormed = true ∧
    (Instr.genNewLe true true [1] [] [2]).wellFormed = true ∧ Instr.sync.wellFormed = true := by decide

/-! ## Decoding: words written out from `30_encoding.md` rules R85 to R89 -/

/-- Header bits 31:24 `0x10`, `CSRC = 2` in bits 9:8, `MODE = 7`; `KEY` of 2 bytes, `IV` empty, `SEG = 16`. -/
theorem test_decode_ctxNew :
    decodeBytes [0x10, 0, 0x02, 0x07, 0, 0, 0, 2, 0xaa, 0xbb, 0, 0, 0, 0, 0, 0, 0, 16]
      = .ok (.ctxNew 7 .external [0xaa, 0xbb] [] 16) := by decide

theorem test_decode_encrypt :
    decodeBytes [0x11, 0, 0, 0, 0, 0, 0, 3, 0, 1, 2] = .ok (.encrypt [0, 1, 2]) := by decide

theorem test_decode_decrypt :
    decodeBytes [0x12, 0, 0, 0, 0, 0, 0, 1, 0xff] = .ok (.decrypt [0xff]) := by decide

theorem test_decode_sync : decodeBytes [0x13, 0, 0, 0] = .ok .sync := by decide

theorem test_decode_setPrf :
    decodeBytes [0x14, 0, 0, 1] = .ok (.setPrf true) ∧ decodeBytes [0x14, 0, 0, 0] = .ok (.setPrf false) := by
  decide

theorem test_decode_getIv : decodeBytes [0x15, 0, 0, 0] = .ok .getIv := by decide

theorem test_decode_getMode : decodeBytes [0x16, 0, 0, 0] = .ok .getMode := by decide

theorem test_decode_getBlockSize : decodeBytes [0x17, 0, 0, 0] = .ok .getBlockSize := by decide

theorem test_decode_getKeySize : decodeBytes [0x18, 0, 0, 0] = .ok .getKeySize := by decide

theorem test_decode_ctxDestroy : decodeBytes [0x1f, 0, 0, 0] = .ok .ctxDestroy := by decide

/-- The example of rule R215, with `DS` in bit 1. -/
theorem test_decode_genNewBe :
    decodeBytes [0x20, 0, 0, 2, 0, 0, 0, 3, 0xc0, 0xc1, 0xc2, 0, 0, 0, 1, 0xe0, 0, 0, 0, 2, 0xff, 0xfe]
      = .ok (.genNewBe false true [0xc0, 0xc1, 0xc2] [0xe0] [0xff, 0xfe]) := by decide

/-- The example of rule R216: header `0x21000001`. -/
theorem test_decode_genNewLe :
    decodeBytes [0x21, 0, 0, 1, 0, 0, 0, 0, 0, 0, 0, 0, 0, 0, 0, 2, 0xfe, 0xff]
      = .ok (.genNewLe true false [] [] [0xfe, 0xff]) := by decide

theorem test_decode_genInvoke : decodeBytes [0x22, 0, 0, 0] = .ok .genInvoke := by decide

theorem test_decode_genNextValue : decodeBytes [0x23, 0, 0, 0] = .ok .genNextValue := by decide

theorem test_decode_genGetCarry : decodeBytes [0x24, 0, 0, 0] = .ok .genGetCarry := by decide

theorem test_decode_genDestroy : decodeBytes [0x2f, 0, 0, 0] = .ok .genDestroy := by decide

/-- Rule R94: an unknown `OPC`, a reserved header bit, `CSRC` on a command without it, `CSRC = 3`, an unused
`ARG` bit, a missing operand, one operand too many. -/
theorem test_decode_refuses :
    decodeBytes [0x30, 0, 0, 0] = .error .unknownOpcode ∧
    decodeBytes [0x11, 0, 0x04, 0, 0, 0, 0, 0] = .error .mustBeZero ∧
    decodeBytes [0x13, 0, 0x01, 0] = .error .mustBeZero ∧
    decodeBytes [0x10, 0, 0x03, 2, 0, 0, 0, 0, 0, 0, 0, 0, 0, 0, 0, 0] = .error .reservedCsrc ∧
    decodeBytes [0x20, 0, 0, 4] = .error .mustBeZero ∧
    decodeBytes [0x11, 0, 0, 0] = .error .operandList ∧
    decodeBytes [0x13, 0, 0, 0, 0] = .error .operandList ∧
    decode { header := 0x11000000, operands := [.word 0] } = .error .operandList := by decide

/-- The encoder lays the same words out. -/
theorem test_encode :
    encode (.ctxNew 2 .none key8 [] 0) = { header := 0x10000002, operands := [.bytes key8, .bytes [], .word 0] } ∧
    encodeBytes (.genNewLe true false [] [] [0xfe, 0xff])
      = [0x21, 0, 0, 1, 0, 0, 0, 0, 0, 0, 0, 0, 0, 0, 0, 2, 0xfe, 0xff] := by decide

/-- The first step after reset: rules R111 to R116 and R141 refuse what cannot run on empty slots, with the
status words of rule R251. -/
theorem test_first_step_from_reset :
    answerOf (step (State.reset.withFetchWord 32 0x11000000)) = some (0x00000201, []) ∧
    answerOf (step (State.reset.withFetchWord 32 0x10000002)) = some (0x00001001, []) ∧
    answerOf (step (State.reset.withFetchWord 32 0x20000000)) = some (0x00001801, []) ∧
    answerOf (step (State.reset.withFetchWord 32 0x22000000)) = some (0x00000301, []) ∧
    answerOf (step (State.reset.withFetchWord 32 0x30000000)) = some (0x00000101, []) :=
  ⟨rfl, rfl, rfl, rfl, rfl⟩

/-! ## Vectors of the spec -/

/-- The example of rule R120 and rows of rule R251. -/
theorem test_ctxNew :
    nextOf (exec (.ctxNew 2 .none key8 [] 0) empty8) = some (answered
      { empty8 with
        ctx := { valid := true, mode := some .cbc, st := .toy key8, iv := zeros 8, oldCipher := zeros 8,
                 segmentSize := 8, count := 0, csrc := .none, prfMode := false, tmp := zeros 8 }
        ports := { init := 1, enc := 0, dec := 0, counter := 0 } } 0 []) := by decide

theorem test_ctxNew_refuses :
    answerOf (exec (.ctxNew 4 .none key8 [] 0) empty8) = some (0x00001201, []) ∧
    answerOf (exec (.ctxNew 3 .none key8 [] 12) empty8) = some (0x00001401, []) ∧
    answerOf (exec (.ctxNew 7 .none key8 [] 0) empty8) = some (0x00001501, []) ∧
    answerOf (exec (.ctxNew 2 .external key8 [] 0) empty8) = some (0x00001601, []) ∧
    answerOf (exec (.ctxNew 7 .engine key8 [] 0) empty8) = some (0x00001701, []) ∧
    answerOf (exec (.ctxNew 9 .none [1] [1] 0) empty8) = some (0x00001001, []) := by decide

/-- Rules R150, R153 (with the register after it) and the rows `s = 1`, `s = 8` of rule R165. -/
theorem test_encrypt_block_modes :
    answerOf (exec (.encrypt data16) (inMode .ecb)) = some (0,
      [0x11, 0x13, 0x15, 0x17, 0x19, 0x1b, 0x1d, 0x17, 0x19, 0x1b, 0x1d, 0x1f, 0x21, 0x23, 0x25, 0x1f]) ∧
    answerOf (exec (.encrypt data16) (inMode .cbc)) = some (0,
      [0xb0, 0xb1, 0xb2, 0xb3, 0xb4, 0xb5, 0xb6, 0xb7, 0xc8, 0xc9, 0xca, 0xcb, 0xcc, 0xcd, 0xce, 0xcf]) ∧
    ctxAfter Context.iv (exec (.encrypt data16) (inMode .cbc))
      = some [0xc8, 0xc9, 0xca, 0xcb, 0xcc, 0xcd, 0xce, 0xcf] ∧
    answerOf (exec (.encrypt [0, 1, 2]) (inMode .cfb)) = some (0, [0xb1, 0xb3, 0xb1]) ∧
    ctxAfter Context.iv (exec (.encrypt [0, 1, 2]) (inMode .cfb))
      = some [0xa3, 0xa4, 0xa5, 0xa6, 0xa7, 0xb1, 0xb3, 0xb1] := by decide

/-- Rules R170, R183, R198 (steps 1 and 4). -/
theorem test_encrypt_stream_modes :
    answerOf (exec (.encrypt data16) (inMode .ofb)) = some (0,
      [0xb1, 0xb2, 0xb7, 0xb4, 0xbd, 0xbe, 0xbb, 0xb0, 0xcb, 0xcf, 0xc3, 0xc7, 0xc3, 0xdf, 0xc3, 0xc7]) ∧
    answerOf (exec (.encrypt [0, 1, 2, 3, 4, 5, 6, 7, 8, 9]) (inMode .pgp))
      = some (0, [0xb1, 0xb2, 0xb7, 0xb4, 0xbd, 0xbe, 0xbb, 0xb0, 0xca, 0xc1]) ∧
    ctxAfter (fun c => (c.iv, c.oldCipher, c.count))
        (exec (.encrypt [0, 1, 2, 3, 4, 5, 6, 7, 8, 9]) (inMode .pgp))
      = some ([0xca, 0xc1, 0xc6, 0xd0, 0xd2, 0xd0, 0xc6, 0xc8],
          [0xb1, 0xb2, 0xb7, 0xb4, 0xbd, 0xbe, 0xbb, 0xb0], 2) ∧
    answerOf (exec (.encrypt [0, 1, 2, 3, 4]) inCtr) = some (0, [0xd1, 0xd2, 0x13, 0x12, 0xf0]) ∧
    genAfter Generator.buf (exec (.encrypt [0, 1, 2, 3, 4]) inCtr)
      = some [0xc0, 0xc1, 0xc2, 0xff, 0xff, 0xe0, 0xe1, 0xe2] ∧
    answerOf (exec (.encrypt [0x10]) (mk (ctxOf .ctr) genSpent)) = some (0x00000103, []) := by decide

/-- Rules R151, R155 (the bit flip) and the `DECRYPT` row `s = 2` of rule R165. -/
theorem test_decrypt_block_modes :
    answerOf (exec (.decrypt [0x11, 0x13, 0x15, 0x17, 0x19, 0x1b, 0x1d, 0x17]) (inMode .ecb))
      = some (0, [0, 1, 2, 3, 4, 5, 6, 7]) ∧
    answerOf (exec (.decrypt [0xb1, 0xb1, 0xb2, 0xb3, 0xb4, 0xb5, 0xb6, 0xb7,
        0xc8, 0xc9, 0xca, 0xcb, 0xcc, 0xcd, 0xce, 0xcf]) (inMode .cbc))
      = some (0, [0, 0, 2, 3, 4, 5, 6, 7, 9, 9, 10, 11, 12, 13, 14, 15]) ∧
    answerOf (exec (.decrypt [0xb1, 0xb2, 0xb1, 0xb6]) (mk { ctxOf .cfb with segmentSize := 16 } genOf))
      = some (0, [0, 1, 2, 3]) := by decide

/-- Rules R171, R178, and the second external row of rule R199 (an answer of four bytes). -/
theorem test_decrypt_stream_modes :
    answerOf (exec (.decrypt [0xb1, 0xb2, 0xb7, 0xb4, 0xbd, 0xbe, 0xbb, 0xb0]) (inMode .ofb))
      = some (0, [0, 1, 2, 3, 4, 5, 6, 7]) ∧
    answerOf (exec (.decrypt [0xb1, 0xb2, 0xb7]) (inMode .pgp)) = some (0, [0, 1, 2]) ∧
    answerOf (exec (.decrypt [0]) (inExternal [{ goodReply 2 with data := [0, 0, 0, 2] }]))
      = some (0x00001701, []) := by decide

/-- Step 2 of rule R184. -/
theorem test_sync :
    ctxAfter (fun c => (c.iv, c.count))
      (exec .sync (mk { ctxOf .pgp with
        iv := [0xca, 0xc1, 0xc6, 0xd0, 0xd2, 0xd0, 0xc6, 0xc8]
        oldCipher := [0xb1, 0xb2, 0xb7, 0xb4, 0xbd, 0xbe, 0xbb, 0xb0]
        count := 2 } genOf))
      = some ([0xb7, 0xb4, 0xbd, 0xbe, 0xbb, 0xb0, 0xca, 0xc1], 8) ∧
    answerOf (exec .sync (inMode .cbc)) = some (0x00002101, []) := by decide

/-- Rules R205, R206: an empty `DECRYPT` is refused too. -/
theorem test_setPrf :
    ctxAfter Context.prfMode (exec (.setPrf true) (inMode .ofb)) = some true ∧
    answerOf (exec (.decrypt []) (mk { ctxOf .ofb with prfMode := true } genOf)) = some (0x00002001, []) := by
  decide

/-- Rules R207 to R210. -/
theorem test_introspection :
    answerOf (exec .getIv (inMode .ecb)) = some (0, iv8) ∧ answerOf (exec .getMode inCtr) = some (0, [7]) ∧
    answerOf (exec .getBlockSize inCtr) = some (0, [0, 0, 0, 8]) ∧
    answerOf (exec .getKeySize inCtr) = some (0, [0, 0, 0, 8]) := by decide

/-- Rules R121 and R226: each leaves the other slot. -/
theorem test_destroy :
    nextOf (exec .ctxDestroy inCtr) = some (answered { inCtr with ctx := Context.cleared 8 } 0 []) ∧
    nextOf (exec .genDestroy inCtr) = some (answered { inCtr with gen := Generator.cleared } 0 []) := by decide

/-- The examples of rules R215 and R216. -/
theorem test_genNew :
    genAfter id (exec (.genNewBe false false [0xc0, 0xc1, 0xc2] [0xe0, 0xe1, 0xe2] [0xff, 0xfe]) empty8)
      = some genOf ∧
    genAfter (fun g => (g.buf, g.endianness, g.allowWraparound))
      (exec (.genNewLe true false [] [] [0xfe, 0xff]) empty8) = some ([0xfe, 0xff], .little, true) := by decide

/-- The examples of rules R220 and R221. -/
theorem test_genInvoke :
    answerOf (exec .genInvoke inCtr) = some (0, [0xc0, 0xc1, 0xc2, 0xff, 0xfe, 0xe0, 0xe1, 0xe2]) ∧
    genAfter Generator.buf (exec .genInvoke inCtr) = some [0xc0, 0xc1, 0xc2, 0xff, 0xff, 0xe0, 0xe1, 0xe2] ∧
    answerOf (exec .genInvoke (mk (ctxOf .ctr) genSpent)) = some (0x00000103, []) ∧
    incrementValue .big [0x00, 0xfe, 0xff] = ([0x00, 0xff, 0x00], false) ∧
    incrementValue .big [0xff, 0xff, 0xff] = ([0, 0, 0], true) ∧
    incrementValue .little [0xff, 0x00, 0xfe] = ([0x00, 0x01, 0xfe], false) := by decide

/-- The examples of rules R224 and R225. -/
theorem test_genNextValue_genGetCarry :
    answerOf (exec .genNextValue (mk (ctxOf .ctr)
      { genNarrow with buf := [0xff, 0x00, 0xfe], n := 3, endianness := .little })) = some (0, [0xfe, 0x00, 0xff]) ∧
    answerOf (exec .genGetCarry (mk (ctxOf .ctr) genSpent)) = some (0, [1]) := by decide

/-! ## Witnesses: a concrete state for the hypotheses of every statement, each clause apart -/

/-- The slot invariants as one decidable proposition. -/
def slotsOk (s : State) : Bool :=
  decide (1 ≤ s.bs) && decide (s.ctx.iv.length = s.bs) && decide (s.ctx.oldCipher.length = s.bs)
    && decide (s.ctx.tmp.length = s.bs) && decide (s.ctx.count ≤ s.bs)
    && decide (s.ctx.valid = false → s.ctx = Context.cleared s.bs)
    && decide (s.ctx.valid = true → s.ctx.mode ≠ none) && decide (s.ctx.valid = true → s.ctx.st ≠ .zero)
    && decide (s.ctx.valid = true → (s.ctx.mode = some .ctr ↔ s.ctx.csrc ≠ .none))
    && decide (s.ctx.valid = true → s.ctx.mode = some .cfb → segmentSizeOk s.ctx.segmentSize s.bs = true)
    && decide (s.ctx.valid = true → s.ctx.mode = some .pgp → 8 ≤ s.bs ∧ 1 ≤ s.ctx.count)
    && decide (s.ctx.valid = true → s.ctx.mode = some .ctr → 1 ≤ s.ctx.count)
    && decide (s.gen.buf.length = genWidth s.gen) && decide (s.gen.p ≤ genPartMax)
    && decide (s.gen.n ≤ genPartMax) && decide (s.gen.q ≤ genPartMax)
    && decide (s.gen.valid = false → s.gen = Generator.cleared) && decide (s.gen.valid = true → 1 ≤ s.gen.n)
    && decide (s.gen.carry = true → genValue s.gen = zeros s.gen.n)

theorem slots_of_ok {s : State} (h : slotsOk s = true) : SlotsInv s := by
  simp only [slotsOk, Bool.and_eq_true, decide_eq_true_eq] at h
  obtain ⟨⟨⟨⟨⟨⟨⟨⟨⟨⟨⟨⟨⟨⟨⟨⟨⟨⟨h1, h2⟩, h3⟩, h4⟩, h5⟩, h6⟩, h7⟩, h8⟩, h9⟩, h10⟩, h11⟩, h12⟩, h13⟩, h14⟩, h15⟩, h16⟩,
    h17⟩, h18⟩, h19⟩ := h
  exact ⟨h1, ⟨h2, h3, h4, h5, h6, h7, h8, h9, h10, h11, h12⟩, ⟨h13, h14, h15, h16, h17, h18, h19⟩⟩

theorem inv_of_idle {s : State} (h : slotsOk s = true)
    (hi : s.stage = .idle ∧ s.pos = 0 ∧ s.inBuf = [] ∧ s.outBuf = []) : s.Inv :=
  ⟨slots_of_ok h, .inl hi.1, fun _ => hi.2, fun hw => by simp [hi.1] at hw⟩

theorem inv_of_waiting {s : State} (h : slotsOk s = true) (hs : s.stage = .refillWait)
    (hw : s.ctx.valid = true ∧ s.ctx.mode = some .ctr ∧ s.ctx.csrc = .external ∧ s.ctx.count = s.bs ∧
      s.pos < s.inBuf.length ∧ s.outBuf.length = s.pos) : s.Inv :=
  ⟨slots_of_ok h, .inr hs, fun hi => by simp [hs] at hi,
    fun _ => ⟨hw.1, hw.2.1, hw.2.2.1, hw.2.2.2.1, hw.2.2.2.2.1, hw.2.2.2.2.2⟩⟩

theorem ready_of_ok {dec : Bool} {m : Mode} {buf : Bytes} {s : State} (h : slotsOk s = true)
    (hs : s.ctx.valid = true ∧ s.ctx.mode = some m ∧ (dec = true → s.ctx.prfMode = false) ∧ buf ≠ [])
    (hc : s.params.bufCap = none ∨ s.params.bufCap = some buf.length) : Ready dec m buf s :=
  ⟨slots_of_ok h, hs.1, hs.2.1, hs.2.2.1, hs.2.2.2, fun cap hcap => by
    rcases hc with hc | hc <;> rw [hc] at hcap <;> simp_all⟩

/-- `s` with a working buffer of at most `cap` bytes. -/
def capped (cap : Nat) (s : State) : State := { s with params := { s.params with bufCap := some cap } }

/-- `s` with this transaction offered. -/
def offered (t : Transaction) (s : State) : State := { s with cmdPort := [t] }

theorem witness_DecodeBytesInvertsEncodeBytes : (Instr.ctxNew 3 .none key8 iv8 16).wellFormed = true := by decide

theorem witness_TransactionDecodesExactlyToWhatEncodesIt :
    decode { header := 0x20000003, operands := [.bytes [1], .bytes [], .bytes [2]] }
      = .ok (.genNewBe true true [1] [] [2]) := by decide

/-- One illegal transaction of each kind, offered to an idle block, and a legal one. -/
theorem witness_IllegalCommandIsRefusedWhole :
    (offered { header := 0x30000000, operands := [] } empty8).stage = .idle ∧
    IllegalTransaction { header := 0x30000000, operands := [] } ∧
    IllegalTransaction { header := 0x11000400, operands := [.bytes [1]] } ∧
    IllegalTransaction { header := 0x10000302, operands := [.bytes [], .bytes [], .word 0] } ∧
    IllegalTransaction { header := 0x13000000, operands := [.word 0] } ∧
    (∃ i, decode { header := 0x13000000, operands := [] } = .ok i) :=
  ⟨rfl, .inl (by intro op; cases op <;> decide), .inr (.inl ⟨.encrypt, by decide⟩),
    .inr (.inr (.inl (by decide))), .inr (.inr (.inr ⟨.sync, by decide⟩)), .sync, by decide⟩

theorem witness_OpcodeRowsAreDisjoint :
    (0x100001ff : Word) &&& opcodeMask .ctxNew = opcodeMatch .ctxNew := by decide

theorem witness_StepRunsTheDecodedCommand :
    (offered (encode .getIv) inCtr).stage = .idle ∧ (offered (encode .getIv) inCtr).cmdPort = encode .getIv :: [] ∧
    decode { header := 0x15000000, operands := [] } = .ok .getIv := by decide

/-- `Inv` holds of an idle block with a command offered, and of a waiting one; both step on. It serves
`EveryStepKeepsTheInvariant`, `InvariantStatesNeverStop` and `OneResponsePerCommand`, whose four cases it lists. -/
theorem witness_EveryStepKeepsTheInvariant :
    (inCtr.Inv ∧ inCtr.stage = .idle ∧ inCtr.cmdPort = [] ∧ ∃ t, step inCtr = .next t) ∧
    ((offered (encode .genInvoke) inCtr).Inv ∧ ∃ t, step (offered (encode .genInvoke) inCtr) = .next t) ∧
    ((waiting []).Inv ∧ (waiting []).replies = [] ∧ ∃ t, step (waiting []) = .next t) ∧
    ((waiting [goodReply 1]).Inv ∧ (waiting [goodReply 1]).replies ≠ [] ∧
      ∃ t, step (waiting [goodReply 1]) = .next t) :=
  ⟨⟨inv_of_idle (by decide) (by decide), rfl, rfl, _, rfl⟩, ⟨inv_of_idle (by decide) (by decide), _, rfl⟩,
    ⟨inv_of_waiting (by decide) rfl (by decide), rfl, _, rfl⟩,
    ⟨inv_of_waiting (by decide) rfl (by decide), by decide, _, rfl⟩⟩

theorem witness_DestroyingBothSlotsGivesTheResetState : inCtr.ctx.valid = true ∧ inCtr.gen.valid = true := by decide

theorem witness_FailedCommandOutsideCtrLeavesBothSlots :
    ∃ t, exec (.encrypt [1]) (inMode .cbc) = .next t ∧ AnsweredError (inMode .cbc) t ∧
      (inMode .cbc).ctx.mode ≠ some .ctr :=
  ⟨_, rfl, ⟨rfl, _, rfl, by decide⟩, by decide⟩

/-- The failing refill is the second: three bytes are left of the first block. The first state is the generic
protocol with `W ≠ BS`, the second a spent generator. -/
theorem witness_FailedCtrCommandKeepsTheConsumedPrefix :
    (Ready false .ctr [1, 2, 3, 4] (mk { ctxOf .ctr with count := 5 } { genNarrow with shortcutEnabled := false }) ∧
      (∃ t, exec (crypt false [1, 2, 3, 4])
          (mk { ctxOf .ctr with count := 5 } { genNarrow with shortcutEnabled := false }) = .next t ∧
        AnsweredError (mk { ctxOf .ctr with count := 5 } { genNarrow with shortcutEnabled := false }) t) ∧
      genWidth genNarrow ≠ 8 ∧ genBlocked genNarrow = false) ∧
    (Ready true .ctr [1, 2, 3, 4] (mk { ctxOf .ctr with count := 5 } genSpent) ∧
      ∃ t, exec (crypt true [1, 2, 3, 4]) (mk { ctxOf .ctr with count := 5 } genSpent) = .next t ∧
        AnsweredError (mk { ctxOf .ctr with count := 5 } genSpent) t) :=
  ⟨⟨ready_of_ok (by decide) (by decide) (.inl rfl), ⟨_, rfl, ⟨rfl, _, rfl, by decide⟩⟩, by decide, by decide⟩,
    ready_of_ok (by decide) (by decide) (.inl rfl), _, rfl, rfl, _, rfl, by decide⟩

/-- A block with `BS = 2`, so that PGP mode is refused. -/
def empty2 : State :=
  { empty8 with params := { empty8.params with blockSize := 2, keySize := 0 }, ctx := Context.cleared 2 }

/-- A block whose `Init` refuses every key. -/
def emptyRejecting : State := { empty8 with params := { empty8.params with cipher := .rejecting } }

/-- The hypotheses of the nine clauses, in order, at the first value that fails each check. -/
theorem witness_CtxNewReportsTheFirstFailingCheck :
    inCtr.ctx.valid = true ∧
    (empty8.ctx.valid = false ∧ ¬ KeyOk [1, 2, 3, 4, 5, 6, 7] empty8) ∧
    (KeyOk key8 empty8 ∧ ¬ IvOk [1, 2, 3, 4, 5, 6, 7] empty8) ∧
    (IvOk [] empty8 ∧ IvOk iv8 empty8 ∧ ¬ ModeOk 4 ∧ ¬ ModeOk 0 ∧ ¬ ModeOk 8) ∧
    (KeyOk [1] empty2 ∧ IvOk [] empty2 ∧ ModeOk 5 ∧ ¬ PgpBlockOk 5 empty2) ∧
    (ModeOk 3 ∧ PgpBlockOk 3 empty8 ∧ ¬ SegOk 3 72 empty8 ∧ ¬ SegOk 3 12 empty8) ∧
    (ModeOk 7 ∧ PgpBlockOk 7 empty8 ∧ SegOk 7 12 empty8 ∧ ¬ CounterGiven 7 .none ∧
      ModeOk 2 ∧ PgpBlockOk 2 empty8 ∧ SegOk 2 12 empty8 ∧ ¬ CounterGiven 2 .external) ∧
    (CounterGiven 7 .engine ∧ ¬ EngineThere .engine empty8) ∧
    (emptyRejecting.ctx.valid = false ∧ KeyOk key8 emptyRejecting ∧ IvOk [] emptyRejecting ∧ ModeOk 1 ∧
      PgpBlockOk 1 emptyRejecting ∧ SegOk 1 0 emptyRejecting ∧ CounterGiven 1 .none ∧
      EngineThere .none emptyRejecting ∧ cipherInit emptyRejecting.params.cipher key8 = none) := by
  unfold KeyOk IvOk ModeOk PgpBlockOk SegOk CounterGiven EngineThere
  refine ⟨?_, ⟨?_, ?_⟩, ⟨?_, ?_⟩, ⟨?_, ?_, ?_, ?_, ?_⟩, ⟨?_, ?_, ?_, ?_⟩, ⟨?_, ?_, ?_, ?_⟩,
    ⟨?_, ?_, ?_, ?_, ?_, ?_, ?_, ?_⟩, ⟨?_, ?_⟩, ?_, ?_, ?_, ?_, ?_, ?_, ?_, ?_, ?_⟩ <;> decide

/-- The three clauses: a block mode, CFB, and a working buffer one byte too small. -/
theorem witness_LengthThenAllocationIsChecked :
    ((inMode .cbc).ctx.valid = true ∧ (inMode .cbc).ctx.prfMode = false ∧ [1, 2, 3].length % (inMode .cbc).bs ≠ 0) ∧
    ((mk { ctxOf .cfb with segmentSize := 16 } genOf).ctx.mode = some .cfb ∧
      [1, 2, 3].length % ((mk { ctxOf .cfb with segmentSize := 16 } genOf).ctx.segmentSize / 8) ≠ 0) ∧
    ((capped 15 (inMode .ecb)).ctx.valid = true ∧ (capped 15 (inMode .ecb)).params.bufCap = some 15 ∧
      15 < data16.length ∧ data16.length % (capped 15 (inMode .ecb)).bs = 0) := by decide

/-- Empty slots, for `ContextCommandsNeedAContext` and `GeneratorCommandsNeedAGenerator` and the refusals of the
other statements. -/
theorem witness_ContextCommandsNeedAContext : empty8.ctx.valid = false ∧ empty8.gen.valid = false := by decide

/-- In three modes: CFB at the largest segment size, PGP, and CTR on the engine. -/
theorem witness_CtxNewBuildsTheContext :
    (empty8.ctx.valid = false ∧ KeyOk key8 empty8 ∧ IvOk [] empty8 ∧ (3, Mode.cfb) ∈ modeTable ∧
      PgpBlockOk 3 empty8 ∧ SegOk 3 64 empty8 ∧ CounterGiven 3 .none ∧ EngineThere .none empty8 ∧
      cipherInit empty8.params.cipher key8 = some (.toy key8)) ∧
    ((5, Mode.pgp) ∈ modeTable ∧ PgpBlockOk 5 empty8 ∧ SegOk 5 0 empty8 ∧ CounterGiven 5 .none) ∧
    ((mk (Context.cleared 8) genOf).ctx.valid = false ∧ KeyOk key8 (mk (Context.cleared 8) genOf) ∧
      IvOk iv8 (mk (Context.cleared 8) genOf) ∧ (7, Mode.ctr) ∈ modeTable ∧
      PgpBlockOk 7 (mk (Context.cleared 8) genOf) ∧ SegOk 7 0 (mk (Context.cleared 8) genOf) ∧
      CounterGiven 7 .engine ∧ EngineThere .engine (mk (Context.cleared 8) genOf) ∧
      cipherInit (mk (Context.cleared 8) genOf).params.cipher key8 = some (.toy key8)) := by
  unfold KeyOk IvOk PgpBlockOk SegOk CounterGiven EngineThere
  refine ⟨⟨?_, ?_, ?_, ?_, ?_, ?_, ?_, ?_, ?_⟩, ⟨?_, ?_, ?_, ?_⟩, ?_, ?_, ?_, ?_, ?_, ?_, ?_, ?_, ?_⟩ <;> decide

/-- A valid context, for `CtxDestroyClearsTheContext`, `SetPrfSetsTheFlag`, `EmptyBufferTouchesNothing`. -/
theorem witness_CtxDestroyClearsTheContext :
    inCtr.ctx.valid = true ∧ inCtr.ctx.prfMode = false ∧ empty8.ctx.valid = false := by decide

theorem witness_PrfModeDisablesDecrypt :
    (mk { ctxOf .ofb with prfMode := true } genOf).ctx.valid = true ∧
    (mk { ctxOf .ofb with prfMode := true } genOf).ctx.prfMode = true := by decide

theorem witness_GetIvAndGetModeAnswerTheState :
    inCtr.ctx.valid = true ∧ (7, Mode.ctr) ∈ modeTable ∧ inCtr.ctx.mode = some .ctr := by decide

theorem witness_SizesAreAnsweredInFourBytes :
    inCtr.ctx.valid = true ∧ inCtr.bs < 2 ^ 32 ∧ inCtr.ks < 2 ^ 32 := by decide

/-- `Ready` and the length rule in ECB, CBC and OFB, with the working buffer just large enough. -/
theorem witness_BlockModesAreReady :
    (Ready false .ecb data16 (capped 16 (inMode .ecb)) ∧ Ready true .ecb data16 (inMode .ecb)) ∧
    (Ready false .cbc data16 (inMode .cbc) ∧ Ready true .cbc data16 (inMode .cbc)) ∧
    (Ready false .ofb data16 (inMode .ofb) ∧ Ready true .ofb data16 (inMode .ofb)) ∧
    data16.length % (inMode .ecb).bs = 0 :=
  ⟨⟨ready_of_ok (by decide) (by decide) (.inr rfl), ready_of_ok (by decide) (by decide) (.inl rfl)⟩,
    ⟨ready_of_ok (by decide) (by decide) (.inl rfl), ready_of_ok (by decide) (by decide) (.inl rfl)⟩,
    ⟨ready_of_ok (by decide) (by decide) (.inl rfl), ready_of_ok (by decide) (by decide) (.inl rfl)⟩, by decide⟩

/-- Two ciphertexts that differ in block 0 only. -/
theorem witness_CbcErrorReachesTwoBlocks :
    Ready true .cbc data16 (inMode .cbc) ∧ (0xff :: data16.drop 1).length = data16.length ∧
    (∃ t p, exec (.decrypt data16) (inMode .cbc) = .next t ∧ AnsweredOk (inMode .cbc) t p) ∧
    (∃ t p, exec (.decrypt (0xff :: data16.drop 1)) (inMode .cbc) = .next t ∧ AnsweredOk (inMode .cbc) t p) ∧
    0 + 1 < data16.length / (inMode .cbc).bs ∧ unitAt 8 0 data16 ≠ unitAt 8 0 (0xff :: data16.drop 1) ∧
    (∀ j, j ≠ 0 → unitAt 8 j data16 = unitAt 8 j (0xff :: data16.drop 1)) := by
  refine ⟨ready_of_ok (by decide) (by decide) (.inl rfl), by decide, ⟨_, _, rfl, rfl, rfl⟩, ⟨_, _, rfl, rfl, rfl⟩,
    by decide, by decide, ?_⟩
  intro j hj
  obtain ⟨k, rfl⟩ := Nat.exists_eq_succ_of_ne_zero hj
  have hk : k.succ * 8 = k * 8 + 7 + 1 := by omega
  simp only [unitAt, hk, data16, List.drop_succ_cons, List.drop_zero]

/-- CFB at the smallest and the largest segment size (the shift path and the full-block path). -/
theorem witness_CfbIsReady :
    (Ready false .cfb [1, 2, 3] (inMode .cfb) ∧ Ready true .cfb [1, 2, 3] (inMode .cfb) ∧
      [1, 2, 3].length % ((inMode .cfb).ctx.segmentSize / 8) = 0) ∧
    (Ready false .cfb data16 (mk { ctxOf .cfb with segmentSize := 64 } genOf) ∧
      Ready true .cfb data16 (mk { ctxOf .cfb with segmentSize := 64 } genOf) ∧
      data16.length % ((mk { ctxOf .cfb with segmentSize := 64 } genOf).ctx.segmentSize / 8) = 0) :=
  ⟨⟨ready_of_ok (by decide) (by decide) (.inl rfl), ready_of_ok (by decide) (by decide) (.inl rfl), by decide⟩,
    ready_of_ok (by decide) (by decide) (.inl rfl), ready_of_ok (by decide) (by decide) (.inl rfl), by decide⟩

theorem witness_OfbKeystreamIgnoresTheData :
    SlotsInv (inMode .ofb) ∧ (inMode .ofb).ctx.mode = some .ofb ∧ data16.length = (zeros 16).length ∧
    (∃ t o, exec (.encrypt data16) (inMode .ofb) = .next t ∧ AnsweredOk (inMode .ofb) t o) ∧
    (∃ t o, exec (.encrypt (zeros 16)) (inMode .ofb) = .next t ∧ AnsweredOk (inMode .ofb) t o) :=
  ⟨slots_of_ok (by decide), rfl, by decide, ⟨_, _, rfl, rfl, rfl⟩, ⟨_, _, rfl, rfl, rfl⟩⟩

/-- A PGP context in the middle of a block. -/
def inPgp (count : Nat) : State := mk { ctxOf .pgp with count := count } Generator.cleared

/-- The register with keystream left, at its last byte, and exhausted. -/
theorem witness_PgpProcessesOneByte :
    (Ready false .pgp [1] (inPgp 7) ∧ Ready true .pgp [1] (inPgp 1) ∧ (inPgp 7).ctx.count < (inPgp 7).bs) ∧
    (Ready false .pgp [1] (inPgp 8) ∧ Ready true .pgp [1] (inPgp 8) ∧ (inPgp 8).ctx.count = (inPgp 8).bs) :=
  ⟨⟨ready_of_ok (by decide) (by decide) (.inl rfl), ready_of_ok (by decide) (by decide) (.inl rfl), by decide⟩,
    ready_of_ok (by decide) (by decide) (.inl rfl), ready_of_ok (by decide) (by decide) (.inl rfl), rfl⟩

/-- Off-mode, `count = PGP_FULL`, and `count ≠ PGP_FULL` at both ends of its range; with the reading
`PGP_FULL = BS` too. -/
theorem witness_SyncRealignsTheRegister :
    (SlotsInv empty8 ∧ empty8.ctx.valid = false) ∧
    (SlotsInv inCtr ∧ inCtr.ctx.valid = true ∧ inCtr.ctx.mode ≠ some .pgp) ∧
    (SlotsInv (inPgp 8) ∧ (inPgp 8).ctx.mode = some .pgp ∧ (inPgp 8).params.pgpFull = .eight ∧
      (inPgp 8).ctx.count = 8) ∧
    (SlotsInv (inPgp 1) ∧ (inPgp 1).ctx.count ≠ 8) ∧ (SlotsInv (inPgp 7) ∧ (inPgp 7).ctx.count ≠ 8) ∧
    (SlotsInv { inPgp 2 with params := { (inPgp 2).params with pgpFull := .blockSize } } ∧
      (inPgp 2).ctx.count ≠ (inPgp 2).bs) :=
  ⟨⟨slots_of_ok (by decide), rfl⟩, ⟨slots_of_ok (by decide), rfl, by decide⟩,
    ⟨slots_of_ok (by decide), rfl, rfl, rfl⟩, ⟨slots_of_ok (by decide), by decide⟩,
    ⟨slots_of_ok (by decide), by decide⟩, slots_of_ok (by decide), by decide⟩

/-- A PGP context with `BS = 16` in the spec's reading `PGP_FULL = 8`, exhausted. -/
def inPgp16 : State :=
  { inPgp 8 with
    params := { (inPgp 8).params with blockSize := 16 }
    ctx := { ctxOf .pgp with iv := iv8 ++ iv8, oldCipher := zeros 16, tmp := zeros 16, count := 16 } }

/-- `ENCRYPT` from an exhausted register, `DECRYPT` from one with keystream left, and `BS = 16`, where the count
after the message is not `PGP_FULL`. -/
theorem witness_SyncHoldsTheLastCiphertext :
    (Ready false .pgp [1, 2, 3] (inPgp 8) ∧ (inPgp 8).params.pgpFull = .eight ∧ (inPgp 8).bs = 8 ∧
      ∃ t o, exec (crypt false [1, 2, 3]) (inPgp 8) = .next t ∧ AnsweredOk (inPgp 8) t o) ∧
    (Ready true .pgp data16 (inPgp 5) ∧
      ∃ t o, exec (crypt true data16) (inPgp 5) = .next t ∧ AnsweredOk (inPgp 5) t o) ∧
    (Ready false .pgp [1, 2, 3] inPgp16 ∧ inPgp16.params.pgpFull = .eight ∧
      ∃ t o, exec (crypt false [1, 2, 3]) inPgp16 = .next t ∧ AnsweredOk inPgp16 t o ∧ t.ctx.count ≠ 8) :=
  ⟨⟨ready_of_ok (by decide) (by decide) (.inl rfl), rfl, rfl, _, _, rfl, rfl, rfl⟩,
    ⟨ready_of_ok (by decide) (by decide) (.inl rfl), _, _, rfl, rfl, rfl⟩,
    ready_of_ok (by decide) (by decide) (.inl rfl), rfl, _, _, rfl, ⟨rfl, rfl⟩, by decide⟩

/-- The three clauses: keystream at hand (its last byte), the engine, the external source. -/
theorem witness_CtrProcessesOneByte :
    (Ready false .ctr [1] (mk { ctxOf .ctr with count := 7 } genOf) ∧ 7 < 8) ∧
    (Ready true .ctr [1] inCtr ∧ inCtr.ctx.count = inCtr.bs ∧ inCtr.ctx.csrc = .engine ∧ inCtr.gen.valid = true ∧
      genBlocked inCtr.gen = false ∧ genWidth inCtr.gen = inCtr.bs) ∧
    (Ready false .ctr [1] (inExternal [goodReply 1]) ∧ (inExternal [goodReply 1]).ctx.count = 8 ∧
      (inExternal [goodReply 1]).ctx.csrc = .external ∧ (goodReply 1).cls = 0 ∧ (goodReply 1).isBytes = true ∧
      (goodReply 1).data.length = 8) :=
  ⟨⟨ready_of_ok (by decide) (by decide) (.inl rfl), by decide⟩,
    ⟨ready_of_ok (by decide) (by decide) (.inl rfl), rfl, rfl, rfl, rfl, rfl⟩,
    ready_of_ok (by decide) (by decide) (.inl rfl), rfl, rfl, rfl, rfl, rfl⟩

/-- The seven clauses in order. -/
theorem witness_CtrRefillRefusesAndWaits :
    (Ready false .ctr [1] (inMode .ctr) ∧ (inMode .ctr).ctx.count = 8 ∧ (inMode .ctr).gen.valid = false) ∧
    (Ready false .ctr [1] (mk (ctxOf .ctr) genSpent) ∧ genSpent.carry = true ∧ genSpent.allowWraparound = false) ∧
    (Ready false .ctr [1] (mk (ctxOf .ctr) genNarrow) ∧ genBlocked genNarrow = false ∧ genWidth genNarrow ≠ 8 ∧
      genNarrow.shortcutEnabled = true) ∧
    (Ready false .ctr [1] (mk (ctxOf .ctr) { genNarrow with shortcutEnabled := false })) ∧
    (Ready false .ctr [1] (inExternal [{ goodReply 1 with cls := 3, cause := 1 }])) ∧
    (Ready false .ctr [1] (inExternal [{ goodReply 1 with isBytes := false }]) ∧
      Ready false .ctr [1] (inExternal [{ goodReply 1 with data := zeros 7 }]) ∧ (zeros 7).length ≠ 8) ∧
    (Ready false .ctr [1] (inExternal []) ∧ (inExternal []).replies = []) :=
  ⟨⟨ready_of_ok (by decide) (by decide) (.inl rfl), rfl, rfl⟩,
    ⟨ready_of_ok (by decide) (by decide) (.inl rfl), rfl, rfl⟩,
    ⟨ready_of_ok (by decide) (by decide) (.inl rfl), rfl, by decide, rfl⟩,
    ready_of_ok (by decide) (by decide) (.inl rfl), ready_of_ok (by decide) (by decide) (.inl rfl),
    ⟨ready_of_ok (by decide) (by decide) (.inl rfl), ready_of_ok (by decide) (by decide) (.inl rfl), by decide⟩,
    ready_of_ok (by decide) (by decide) (.inl rfl), rfl⟩

/-- Nine bytes, one answer there from the start, one that arrives while the command waits. -/
theorem witness_WaitingIsTransparent :
    Ready false .ctr [0, 1, 2, 3, 4, 5, 6, 7, 8] (inExternal [goodReply 1]) ∧ [goodReply 2] ≠ [] ∧
    ∃ w, exec (crypt false [0, 1, 2, 3, 4, 5, 6, 7, 8]) (inExternal [goodReply 1]) = .next w ∧
      w.stage = .refillWait :=
  ⟨ready_of_ok (by decide) (by decide) (.inl rfl), by decide, _, rfl, rfl⟩

theorem witness_CtrAndOfbDecryptIsEncrypt :
    (inCtr.ctx.prfMode = false ∧ inCtr.ctx.mode = some .ctr) ∧
    ((inMode .ofb).ctx.prfMode = false ∧ (inMode .ofb).ctx.mode = some .ofb ∧
      ∃ t, exec (.decrypt data16) (inMode .ofb) = .next t) := ⟨by decide, by decide, by decide, _, rfl⟩

theorem witness_ShortcutAndGenericProtocolsAgree :
    SlotsInv inCtr ∧ genWidth inCtr.gen = inCtr.bs ∧
    ∃ t, exec (crypt false data16) { inCtr with gen := { inCtr.gen with shortcutEnabled := true } } = .next t :=
  ⟨slots_of_ok (by decide), rfl, _, rfl⟩

/-- Sixteen bytes take the last two values of the generator; with wraparound allowed a third may follow. -/
theorem witness_CtrKeystreamEncryptsTheCounter :
    (Ready false .ctr data16 inCtr ∧ inCtr.ctx.count = inCtr.bs ∧ inCtr.ctx.csrc = .engine ∧
      inCtr.gen.valid = true ∧ genBlocked inCtr.gen = false ∧ genWidth inCtr.gen = inCtr.bs ∧
      valueNat inCtr.gen.endianness (genValue inCtr.gen) + (data16.length + inCtr.bs - 1) / inCtr.bs
        = 256 ^ inCtr.gen.n) ∧
    (Ready true .ctr (data16 ++ [1]) (mk (ctxOf .ctr) { genOf with allowWraparound := true }) ∧
      genBlocked { genOf with allowWraparound := true } = false) :=
  ⟨⟨ready_of_ok (by decide) (by decide) (.inl rfl), rfl, rfl, rfl, rfl, rfl, by decide⟩,
    ready_of_ok (by decide) (by decide) (.inl rfl), rfl⟩

/-- In CBC mode, where `old_cipher` may end differently, and in PGP mode. -/
theorem witness_DecryptInvertsEncrypt :
    (SlotsInv (inMode .cbc) ∧ (inMode .cbc).ctx.valid = true ∧ (inMode .cbc).ctx.prfMode = false ∧
      ∃ t c, exec (.encrypt data16) (inMode .cbc) = .next t ∧ AnsweredOk (inMode .cbc) t c) ∧
    (SlotsInv (inPgp 5) ∧ (inPgp 5).ctx.mode ≠ some .cbc ∧
      ∃ t c, exec (.encrypt data16) (inPgp 5) = .next t ∧ AnsweredOk (inPgp 5) t c) :=
  ⟨⟨slots_of_ok (by decide), rfl, rfl, _, _, rfl, rfl, rfl⟩, slots_of_ok (by decide), by decide, _, _, rfl, rfl, rfl⟩

/-- Two pieces in PGP mode, the first ending inside a block; the working buffer holds just both. -/
theorem witness_SplitMessageGivesTheSameResult :
    SlotsInv (capped 5 (inPgp 8)) ∧ ([1, 2, 3] ++ [4, 5] : Bytes).length ≤ 5 ∧
    ∃ t x u y, exec (crypt false [1, 2, 3]) (capped 5 (inPgp 8)) = .next t ∧ AnsweredOk (capped 5 (inPgp 8)) t x ∧
      exec (crypt false [4, 5]) t = .next u ∧ AnsweredOk t u y :=
  ⟨slots_of_ok (by decide), by decide, _, _, _, _, rfl, ⟨rfl, rfl⟩, rfl, rfl, rfl⟩

theorem witness_StreamModesRequestOncePerRefill :
    (Ready true .pgp data16 (inPgp 5) ∧
      ∃ t o, exec (crypt true data16) (inPgp 5) = .next t ∧ AnsweredOk (inPgp 5) t o) ∧
    (Ready false .ctr [1] (inExternal [goodReply 1]) ∧ ∃ t o,
      exec (crypt false [1]) (inExternal [goodReply 1]) = .next t ∧ AnsweredOk (inExternal [goodReply 1]) t o) :=
  ⟨⟨ready_of_ok (by decide) (by decide) (.inl rfl), _, _, rfl, rfl, rfl⟩,
    ready_of_ok (by decide) (by decide) (.inl rfl), _, _, rfl, rfl, rfl⟩

/-- A command that uses each port. -/
theorem witness_PortsAreUsedOnlyAsTheRulesSay :
    (∃ t, exec (.encrypt data16) (inMode .ecb) = .next t ∧ t.ports.enc ≠ (inMode .ecb).ports.enc) ∧
    (∃ t, exec (.decrypt data16) (inMode .ofb) = .next t ∧ t.ports.enc ≠ (inMode .ofb).ports.enc) ∧
    (∃ t, exec (.decrypt data16) (inMode .ecb) = .next t ∧ t.ports.dec ≠ (inMode .ecb).ports.dec) ∧
    (∃ t, exec (.ctxNew 1 .none key8 [] 0) empty8 = .next t ∧ t.ports.init ≠ empty8.ports.init) ∧
    (∃ t, exec (.encrypt [1]) (inExternal [goodReply 1]) = .next t ∧
      t.ports.counter ≠ (inExternal [goodReply 1]).ports.counter) :=
  ⟨⟨_, rfl, by decide⟩, ⟨_, rfl, by decide⟩, ⟨_, rfl, by decide⟩, ⟨_, rfl, by decide⟩, _, rfl, by decide⟩

/-- The four length bounds at their edges. -/
theorem witness_GenNewBuildsTheGenerator :
    inCtr.gen.valid = true ∧ empty8.gen.valid = false ∧ ([] : Bytes).length < 1 ∧ 65535 < (zeros 65536).length ∧
    1 ≤ ([1] : Bytes).length ∧ (zeros 65535).length ≤ 65535 := by
  refine ⟨rfl, rfl, by decide, ?_, by decide, ?_⟩ <;> simp only [zeros, List.length_replicate] <;> omega

/-- Empty, blocked, and ready (armed, and exhausted with wraparound allowed). -/
theorem witness_GenInvokeReturnsThenIncrements :
    (SlotsInv empty8 ∧ empty8.gen.valid = false) ∧
    (SlotsInv (mk (ctxOf .ctr) genSpent) ∧ genSpent.valid = true ∧ genSpent.carry = true ∧
      genSpent.allowWraparound = false) ∧
    (SlotsInv inCtr ∧ inCtr.gen.valid = true ∧ inCtr.gen.carry = false) ∧
    (SlotsInv (mk (ctxOf .ctr) { genSpent with allowWraparound := true })) :=
  ⟨⟨slots_of_ok (by decide), rfl⟩, ⟨slots_of_ok (by decide), rfl, rfl, rfl⟩, ⟨slots_of_ok (by decide), rfl, rfl⟩,
    slots_of_ok (by decide)⟩

theorem witness_GenNextValueAnswersTheInteger :
    (SlotsInv inCtr ∧ inCtr.gen.valid = true ∧ inCtr.gen.endianness = .big) ∧
    (SlotsInv (mk (ctxOf .ctr) { genOf with endianness := .little })) ∧ (SlotsInv empty8 ∧ empty8.gen.valid = false) :=
  ⟨⟨slots_of_ok (by decide), rfl, rfl⟩, slots_of_ok (by decide), slots_of_ok (by decide), rfl⟩

theorem witness_GenGetCarryAndGenDestroyComplete : inCtr.gen.valid = true ∧ empty8.gen.valid = false := by decide

theorem witness_InvocationsCountUp :
    SlotsInv inCtr ∧ inCtr.gen.valid = true ∧ genBlocked inCtr.gen = false := ⟨slots_of_ok (by decide), rfl, rfl⟩

theorem witness_ExhaustedGeneratorStaysExhausted :
    SlotsInv (mk (ctxOf .ctr) genSpent) ∧ genSpent.valid = true ∧ genSpent.carry = true ∧
    genSpent.allowWraparound = false ∧ Instr.genInvoke ≠ .genDestroy ∧
    ∃ t, exec .genInvoke (mk (ctxOf .ctr) genSpent) = .next t :=
  ⟨slots_of_ok (by decide), rfl, rfl, rfl, by decide, _, rfl⟩

/-- Both outcomes: a command that leaves the context's identity, and `CTX_DESTROY`. -/
theorem witness_ContextIdentityIsImmutable :
    (∃ t, (offered (encode (.encrypt data16)) inCtr).ctx.valid = true ∧
      step (offered (encode (.encrypt data16)) inCtr) = .next t ∧ t.ctx.valid = true) ∧
    (∃ t, step (offered (encode .ctxDestroy) inCtr) = .next t ∧ t.ctx.valid = false) :=
  ⟨⟨_, rfl, rfl, rfl⟩, _, rfl, rfl⟩

/-- Both outcomes: `SET_PRF 1`, and `CTX_DESTROY` of a context with the flag set. -/
theorem witness_PrfModeChangesOnlyBySetPrf :
    ((offered (encode (.setPrf true)) inCtr).Inv ∧
      ∃ t, step (offered (encode (.setPrf true)) inCtr) = .next t ∧ t.ctx.prfMode ≠ inCtr.ctx.prfMode) ∧
    ((offered (encode .ctxDestroy) (mk { ctxOf .ofb with prfMode := true } genOf)).Inv ∧
      ∃ t, step (offered (encode .ctxDestroy) (mk { ctxOf .ofb with prfMode := true } genOf)) = .next t ∧
        t.ctx.prfMode ≠ true) :=
  ⟨⟨inv_of_idle (by decide) (by decide), _, rfl, by decide⟩, inv_of_idle (by decide) (by decide), _, rfl, by decide⟩

/-- A generator command, and a context command that writes the generator. -/
theorem witness_SlotsAreSeparate :
    (isGeneratorCommand .genInvoke = true ∧ ∃ t, exec .genInvoke inCtr = .next t) ∧
    (isGeneratorCommand (.encrypt [1]) = false ∧
      ∃ t, exec (.encrypt [1]) inCtr = .next t ∧ t.gen ≠ inCtr.gen) :=
  ⟨⟨rfl, _, rfl⟩, rfl, _, rfl, by decide⟩

/-- A message that needs no refill, one that ends exactly with a block, and one that goes past it. -/
theorem witness_PgpProcessesAMessage :
    Ready false .pgp [1, 2] (inPgp 6) ∧ Ready true .pgp [1, 2, 3] (inPgp 5) ∧ Ready false .pgp data16 (inPgp 5) :=
  ⟨ready_of_ok (by decide) (by decide) (.inl rfl), ready_of_ok (by decide) (by decide) (.inl rfl),
    ready_of_ok (by decide) (by decide) (.inl rfl)⟩

theorem witness_CtrOnAnExternalSourceProcessesAMessage :
    Ready false .ctr [0, 1, 2, 3, 4, 5, 6, 7, 8] (inExternal [goodReply 1, goodReply 1, goodReply 3]) ∧
    (inExternal [goodReply 1, goodReply 1, goodReply 3]).replies = [goodReply 1, goodReply 1] ++ [goodReply 3] ∧
    [goodReply 1, goodReply 1].length = (9 + 8 - 1) / 8 ∧
    (∀ r ∈ [goodReply 1, goodReply 1], r.cls = 0 ∧ r.isBytes = true ∧ r.data.length = 8) :=
  ⟨ready_of_ok (by decide) (by decide) (.inl rfl), rfl, by decide, by decide⟩

end Sys2Proof.Tests
end

