-- ==== Sys2Proof/Proofs/RoundTrip.lean ====
section
/-! PROOF of O45. `ENCRYPT m` and `DECRYPT c` run in lockstep from the same state: the decrypting run reads the
units the encrypting run wrote and writes back the units it read, while the registers both runs read stay equal.
For the modes that loop over units this is `runUnits_inverts` with one lemma per pair of units; the byte loop of
CTR is the same procedure in both directions, which reads neither buffer (`ctrRun_replays`). -/

open Sys2Proof Sys2Proof.Machine Sys2Proof.Spec

namespace Sys2Proof.RoundTrip

/-! ## Answers -/

/-- What is `OK` in an answered state: the status is 0 and the result is the one answered. -/
theorem answeredOk_answered {s u : State} {status : Word} {result out : Bytes} (hd : u.dataOut = s.dataOut) :
    AnsweredOk s (answered u status result) out ↔ status = 0 ∧ result = out := by
  simp [AnsweredOk, answered, hd]

theorem answeredOk_finishRun {s u : State} {out : Bytes} (hd : u.dataOut = s.dataOut) :
    AnsweredOk s (finishRun u) out ↔ u.outBuf = out := by
  rw [finishRun, complete_eq_answered, answeredOk_answered hd]
  simp

theorem not_answeredOk_raise (c : Cause) (s : State) (out : Bytes) : ¬ AnsweredOk s (raise c s) out := by
  rw [raise_eq_answered, answeredOk_answered rfl]
  exact fun h => causeStatus_ne_zero c h.1

/-! ## What the two runs have in common -/

/-- The registers in which the two runs agree: all of them that a later command reads, `old_cipher` but in CBC
mode, where only `DECRYPT` stages the ciphertext in it (rule R154). -/
structure Agrees (md : Mode) (a b : State) : Prop where
  iv : b.ctx.iv = a.ctx.iv
  count : b.ctx.count = a.ctx.count
  gen : b.gen = a.gen
  replies : b.replies = a.replies
  oldCipher : md ≠ .cbc → b.ctx.oldCipher = a.ctx.oldCipher

/-- The encrypting run stands at `a` and the decrypting run at `b`, both begun from `s`, after the same number
of units. -/
structure Mirrored (md : Mode) (s a b : State) : Prop extends Agrees md a b where
  encParams : a.params = s.params
  decParams : b.params = s.params
  encData : a.dataOut = s.dataOut
  decData : b.dataOut = s.dataOut
  encSegment : a.ctx.segmentSize = s.ctx.segmentSize
  decSegment : b.ctx.segmentSize = s.ctx.segmentSize
  st : b.ctx.st = a.ctx.st
  ivLength : a.ctx.iv.length = s.bs

theorem Mirrored.encBs {md : Mode} {s a b : State} (h : Mirrored md s a b) : a.bs = s.bs :=
  congrArg Params.blockSize h.encParams

theorem Mirrored.decBs {md : Mode} {s a b : State} (h : Mirrored md s a b) : b.bs = s.bs :=
  congrArg Params.blockSize h.decParams

/-- Both runs ask the cipher for the same thing. -/
theorem Mirrored.encBlock {md : Mode} {s a b : State} (h : Mirrored md s a b) :
    encBlock b b.ctx.iv = encBlock a a.ctx.iv := by
  simp only [Machine.encBlock, h.st, h.iv]

/-- `D` in the decrypting run undoes `E` in the encrypting run. -/
theorem Mirrored.decBlock_encBlock {md : Mode} {s a b : State} (h : Mirrored md s a b) (x : Bytes) :
    decBlock b (Machine.encBlock a x) = x := by
  simp only [Machine.encBlock, decBlock, h.st, cipherDec_cipherEnc]

theorem Mirrored.encBlock_iv_length {md : Mode} {s a b : State} (h : Mirrored md s a b) :
    (Machine.encBlock a a.ctx.iv).length = s.bs := by
  rw [Machine.encBlock, cipherEnc_length, h.ivLength]

theorem Mirrored.writeOut {md : Mode} {s a b : State} (h : Mirrored md s a b) (v w : Bytes) :
    Mirrored md s (writeOut v a) (writeOut w b) := { h with }

theorem mirrored_allocate (md : Mode) {s : State} (hs : SlotsInv s) (m c : Bytes) :
    Mirrored md s (allocate m s) (allocate c s) where
  iv := rfl
  count := rfl
  gen := rfl
  replies := rfl
  oldCipher _ := rfl
  encParams := rfl
  decParams := rfl
  encData := rfl
  decData := rfl
  encSegment := rfl
  decSegment := rfl
  st := rfl
  ivLength := hs.ctx.ivLength

/-- What O45 says of the end states `t` of `ENCRYPT m` and `t'` of `DECRYPT c`, with the length that lets
`DECRYPT c` pass the checks which `ENCRYPT m` passed. -/
structure Restores (md : Mode) (s t t' : State) (m c : Bytes) : Prop extends Agrees md t t' where
  length : c.length = m.length
  answer : AnsweredOk s t' m

theorem finishRun_restores {md : Mode} {s u v : State} {m c : Bytes} (h : Agrees md u v)
    (hd : v.dataOut = s.dataOut) (hl : c.length = m.length) (hv : v.outBuf = m) :
    Restores md s (finishRun u) (finishRun v) m c :=
  { h with length := hl, answer := (answeredOk_finishRun hd).mpr hv }

/-! ## The loop over units -/

section Units
variable {α : Type} {md : Mode} {s : State} {n : Nat} {bytes : α → Bytes}
  {enc dec : State → α → State × Bytes}

/-- One unit of `n` bytes: what `enc` makes of `x` in one run, `dec` turns back into `x` in the other, and the
runs stay mirrored. -/
def UnitInverts (md : Mode) (s : State) (n : Nat) (bytes : α → Bytes) (enc dec : State → α → State × Bytes) :
    Prop :=
  ∀ a b x, Mirrored md s a b → (bytes x).length = n →
    ∃ y, (bytes y).length = n ∧ (enc a x).2 = bytes y ∧ (dec b y).2 = bytes x ∧
      Mirrored md s (enc a x).1 (dec b y).1 ∧
      (enc a x).1.outBuf = a.outBuf ∧ (dec b y).1.outBuf = b.outBuf

theorem runUnits_inverts (hu : UnitInverts md s n bytes enc dec) (xs : List α) (a b : State)
    (hab : Mirrored md s a b) (hx : ∀ x ∈ xs, (bytes x).length = n) :
    ∃ ys : List α, (∀ y ∈ ys, (bytes y).length = n) ∧
      (ys.flatMap bytes).length = (xs.flatMap bytes).length ∧
      Mirrored md s (runUnits enc xs a) (runUnits dec ys b) ∧
      (runUnits enc xs a).outBuf = a.outBuf ++ ys.flatMap bytes ∧
      (runUnits dec ys b).outBuf = b.outBuf ++ xs.flatMap bytes := by
  induction xs generalizing a b with
  | nil => exact ⟨[], by simp, rfl, hab, by simp, by simp⟩
  | cons x xs ih =>
    have hxn : (bytes x).length = n := hx x List.mem_cons_self
    obtain ⟨y, hyn, hey, hdx, hmir, hea, hdb⟩ := hu a b x hab hxn
    obtain ⟨ys, hys, hlen, hend, henc, hdec⟩ :=
      ih _ _ (hmir.writeOut (enc a x).2 (dec b y).2) fun z hz => hx z (List.mem_cons_of_mem _ hz)
    refine ⟨y :: ys, ?_, ?_, hend, ?_, ?_⟩
    · simpa [hyn] using hys
    · simp [hyn, hxn, hlen]
    · rw [runUnits_cons, henc, writeOut_outBuf, hea, hey, List.flatMap_cons, List.append_assoc]
    · rw [runUnits_cons, hdec, writeOut_outBuf, hdb, hdx, List.flatMap_cons, List.append_assoc]

/-- The data phases of a mode that cuts its buffer with `cut`, where `cut` cuts a buffer of whole units into the
units it is made of. -/
theorem unitLoop_restores (hs : SlotsInv s) (hu : UnitInverts md s n bytes enc dec) {cut : Bytes → List α}
    (hcut : ∀ ys : List α, (∀ y ∈ ys, (bytes y).length = n) → cut (ys.flatMap bytes) = ys)
    {m c : Bytes} (hm : (cut m).flatMap bytes = m) (hmn : ∀ x ∈ cut m, (bytes x).length = n)
    (hok : AnsweredOk s (finishRun (runUnits enc (cut m) (allocate m s))) c) :
    Restores md s (finishRun (runUnits enc (cut m) (allocate m s)))
      (finishRun (runUnits dec (cut c) (allocate c s))) m c := by
  obtain ⟨ys, hys, hlen, hend, henc, hdec⟩ :=
    runUnits_inverts hu (cut m) _ _ (mirrored_allocate md hs m c) hmn
  have hc : ys.flatMap bytes = c := by
    rw [← (answeredOk_finishRun hend.encData).mp hok, henc, allocate_outBuf, List.nil_append]
  have hcc : cut c = ys := by rw [← hc, hcut ys hys]
  rw [hcc]
  refine finishRun_restores hend.toAgrees hend.decData ?_ ?_
  · rw [← hc, hlen, hm]
  · rw [hdec, allocate_outBuf, List.nil_append, hm]

end Units

/-- Units put together and cut again are the units. -/
theorem units_flatten_of_lengths {n : Nat} (hn : 0 < n) (ys : List Bytes) (h : ∀ y ∈ ys, y.length = n) :
    units n ys.flatten = ys := by
  induction ys with
  | nil => simp [units, takeUnits]
  | cons y ys ih =>
    have hy : y.length = n := h y List.mem_cons_self
    have hone : units n y = [y] := by simp [units, hy, Nat.div_self hn, takeUnits, List.take_of_length_le]
    rw [List.flatten_cons, units_append n y _ hn (by rw [hy, Nat.mod_self]), hone,
      ih fun z hz => h z (List.mem_cons_of_mem _ hz)]
    rfl

/-- The data phases of a mode whose units are blocks or segments of `n` bytes. -/
theorem blockLoop_restores {md : Mode} {s : State} {n : Nat} {enc dec : State → Bytes → State × Bytes}
    (hs : SlotsInv s) (hn : 0 < n) (hu : UnitInverts md s n id enc dec) {m c : Bytes} (hm : m.length % n = 0)
    (hok : AnsweredOk s (finishRun (runUnits enc (units n m) (allocate m s))) c) :
    Restores md s (finishRun (runUnits enc (units n m) (allocate m s)))
      (finishRun (runUnits dec (units n c) (allocate c s))) m c := by
  refine unitLoop_restores hs hu (cut := units n) (fun ys hys => ?_) ?_ (units_mem_length n m) hok
  · rw [List.flatMap_id]; exact units_flatten_of_lengths hn ys hys
  · rw [List.flatMap_id]; exact units_flatten n m hm

/-! ## One unit of each mode -/

/-- `D(E(P)) = P` (rules R8, R150, R151). -/
theorem ecb_unitInverts (s : State) : UnitInverts .ecb s s.bs id ecbEncBlock ecbDecBlock :=
  fun a _ p hab hp =>
    ⟨encBlock a p, by rw [id, encBlock, cipherEnc_length]; exact hp, rfl, hab.decBlock_encBlock p,
      { hab with }, rfl, rfl⟩

/-- `D(E(P xor iv)) xor iv = P`, and both directions leave the ciphertext block in `iv` (rules R153, R154). -/
theorem cbc_unitInverts (s : State) : UnitInverts .cbc s s.bs id cbcEncBlock cbcDecBlock := by
  intro a b p hab hp
  have hpl : p.length = s.bs := hp
  have hc : (encBlock a (xorBytes p a.ctx.iv)).length = s.bs := by
    rw [encBlock, cipherEnc_length, xorBytes_length, hpl, hab.ivLength, Nat.min_self]
  refine ⟨encBlock a (xorBytes p a.ctx.iv), hc, rfl, ?_, ?_, rfl, rfl⟩
  · simp only [cbcDecBlock, hab.decBlock_encBlock, hab.iv]
    exact xorBytes_cancel p _ (by rw [hpl, hab.ivLength])
  · exact { hab with iv := rfl, ivLength := hc, oldCipher := fun h => absurd rfl h }

/-- The keystream is xored away again, and both directions feed the ciphertext segment back (rules R161,
R162). -/
theorem cfb_unitInverts (s : State) (hseg : segmentBytes s.ctx.segmentSize ≤ s.bs) :
    UnitInverts .cfb s (segmentBytes s.ctx.segmentSize) id cfbEncSegment cfbDecSegment := by
  intro a b p hab hp
  have hpl : p.length = segmentBytes s.ctx.segmentSize := hp
  have hk : ((encBlock a a.ctx.iv).take (segmentBytes s.ctx.segmentSize)).length
      = segmentBytes s.ctx.segmentSize := by
    rw [List.length_take, hab.encBlock_iv_length]; omega
  have hc : (cfbEncSegment a p).2.length = segmentBytes s.ctx.segmentSize := by
    simp only [cfbEncSegment, hab.encSegment, xorBytes_length, hpl, hk, Nat.min_self]
  refine ⟨(cfbEncSegment a p).2, hc, rfl, ?_, ?_, rfl, rfl⟩
  · simp only [cfbEncSegment, cfbDecSegment, hab.encBlock, hab.encSegment, hab.decSegment]
    exact xorBytes_cancel p _ (by rw [hpl, hk])
  · have hfeed : cfbFeed b.bs b.ctx.iv (cfbEncSegment a p).2 = cfbFeed a.bs a.ctx.iv (cfbEncSegment a p).2 := by
      rw [hab.decBs, hab.encBs, hab.iv]
    have hlen : (cfbFeed a.bs a.ctx.iv (cfbEncSegment a p).2).length = s.bs := by
      rw [hab.encBs]
      exact cfbFeed_length _ _ _ hab.ivLength (by rw [hc]; exact hseg)
    exact { hab with iv := hfeed, ivLength := hlen }

/-- The keystream block is xored away again, and both directions leave it in `iv` (rules R170, R171). -/
theorem ofb_unitInverts (s : State) : UnitInverts .ofb s s.bs id ofbBlock ofbBlock := by
  intro a b p hab hp
  have hpl : p.length = s.bs := hp
  refine ⟨xorBytes p (encBlock a a.ctx.iv), ?_, rfl, ?_, ?_, rfl, rfl⟩
  · rw [id, xorBytes_length, hpl, hab.encBlock_iv_length, Nat.min_self]
  · simp only [ofbBlock, hab.encBlock]
    exact xorBytes_cancel p _ (by rw [hpl, hab.encBlock_iv_length])
  · exact { hab with iv := hab.encBlock, ivLength := hab.encBlock_iv_length }

/-- The refill before a byte is the same in both runs (rule R176). -/
theorem Mirrored.pgpReady {s a b : State} (h : Mirrored .pgp s a b) :
    Mirrored .pgp s (pgpReady a) (pgpReady b) := by
  have hfull : b.ctx.count = b.bs ↔ a.ctx.count = a.bs := by rw [h.count, h.decBs, h.encBs]
  by_cases hc : a.ctx.count = a.bs
  · rw [Machine.pgpReady, Machine.pgpReady, if_pos hc, if_pos (hfull.mpr hc)]
    exact { h with
      iv := h.encBlock, count := rfl, oldCipher := fun _ => h.iv, ivLength := h.encBlock_iv_length }
  · rw [Machine.pgpReady, Machine.pgpReady, if_neg hc, if_neg (mt hfull.mp hc)]
    exact h

@[simp] theorem pgpReady_outBuf (s : State) : (pgpReady s).outBuf = s.outBuf := by
  unfold pgpReady
  split <;> rfl

/-- The register byte is xored away again, and both directions leave the ciphertext byte in the register (rules
R177, R178). -/
theorem pgp_unitInverts (s : State) : UnitInverts .pgp s 1 (fun b => [b]) pgpEncByte pgpDecByte := by
  intro a b p hab _
  have h := hab.pgpReady
  have hk : byteAt (pgpReady b).ctx.iv (pgpReady b).ctx.count
      = byteAt (pgpReady a).ctx.iv (pgpReady a).ctx.count := by rw [h.iv, h.count]
  refine ⟨byteAt (pgpReady a).ctx.iv (pgpReady a).ctx.count ^^^ p, rfl, rfl, ?_, ?_, pgpReady_outBuf a,
    pgpReady_outBuf b⟩
  · simp only [pgpDecByte, pgpDecReady, hk, ← BitVec.xor_assoc, BitVec.xor_self, BitVec.zero_xor]
  · exact { h with
      iv := congrArg₂ (List.set · · _) h.iv h.count
      count := congrArg (· + 1) h.count
      ivLength := List.length_set.trans h.ivLength }

/-! ## The byte loop of CTR -/

/-- The same state with other buffers, which no refill and no byte of CTR reads. -/
def rebuffer (i o : Bytes) (s : State) : State := { s with inBuf := i, outBuf := o }

/-- The outcome of a refill with other buffers. -/
def rebufferRefill (i o : Bytes) : Refill → Refill
  | .filled s => .filled (rebuffer i o s)
  | .raised cls cause s => .raised cls cause (rebuffer i o s)
  | .waiting s => .waiting (rebuffer i o s)

theorem acceptReply_rebuffer (i o : Bytes) (r : CounterReply) (s : State) :
    acceptReply r (rebuffer i o s) = rebufferRefill i o (acceptReply r s) := by
  have hbs : (rebuffer i o s).bs = s.bs := rfl
  unfold acceptReply
  rw [hbs]
  split_ifs <;> rfl

theorem externalRefill_rebuffer (i o : Bytes) (s : State) :
    externalRefill (rebuffer i o s) = rebufferRefill i o (externalRefill s) := by
  have hr : (rebuffer i o s).replies = s.replies := rfl
  unfold externalRefill
  rw [hr]
  cases s.replies with
  | nil => rfl
  | cons r rest => exact acceptReply_rebuffer i o r (s.noteCounter.withReplies rest)

theorem shortcutRefill_rebuffer (i o : Bytes) (s : State) :
    shortcutRefill (rebuffer i o s) = rebufferRefill i o (shortcutRefill s) := by
  have hbs : (rebuffer i o s).bs = s.bs := rfl
  have hg : (rebuffer i o s).gen = s.gen := rfl
  unfold shortcutRefill
  rw [hbs, hg]
  split_ifs <;> rfl

theorem genericRefill_rebuffer (i o : Bytes) (s : State) :
    genericRefill (rebuffer i o s) = rebufferRefill i o (genericRefill s) := by
  have hbs : (rebuffer i o s).bs = s.bs := rfl
  have hg : (rebuffer i o s).gen = s.gen := rfl
  unfold genericRefill
  rw [hbs, hg]
  split_ifs <;> rfl

theorem refillCtr_rebuffer (i o : Bytes) (s : State) :
    refillCtr (rebuffer i o s) = rebufferRefill i o (refillCtr s) := by
  have hc : (rebuffer i o s).ctx = s.ctx := rfl
  have hg : (rebuffer i o s).gen = s.gen := rfl
  unfold refillCtr
  rw [hc, hg]
  split_ifs
  · exact externalRefill_rebuffer i o s
  · rfl
  · exact shortcutRefill_rebuffer i o s
  · exact genericRefill_rebuffer i o s

theorem ctrReady_rebuffer (i o : Bytes) {s u : State} (h : ctrReady s = .filled u) :
    ctrReady (rebuffer i o s) = .filled (rebuffer i o u) := by
  have hc : (rebuffer i o s).ctx = s.ctx := rfl
  have hbs : (rebuffer i o s).bs = s.bs := rfl
  have hstart (r : Refill) : (rebufferRefill i o r).startBlock = rebufferRefill i o r.startBlock := by
    cases r <;> rfl
  unfold ctrReady at h ⊢
  rw [hc, hbs]
  split_ifs at h ⊢ with hf
  · rw [refillCtr_rebuffer, hstart, h]; rfl
  · cases h; rfl

/-- A byte of CTR undone: the ciphertext byte meets the same keystream byte in the other run. -/
theorem ctrByte_rebuffer (i o : Bytes) (b : Byte) (u : State) :
    ctrByte (b ^^^ byteAt u.ctx.iv u.ctx.count) (rebuffer i o u) = rebuffer i (o ++ [b]) (ctrByte b u) := by
  have hcancel : b ^^^ byteAt u.ctx.iv u.ctx.count ^^^ byteAt u.ctx.iv u.ctx.count = b := by
    rw [BitVec.xor_assoc, BitVec.xor_self, BitVec.xor_zero]
  exact congrArg (fun x => writeOut [x] ((rebuffer i o u).withCtx (u.ctx.withCount (u.ctx.count + 1)))) hcancel

/-- A byte that gets its keystream keeps the width of the generator's buffer, the responses sent and the bytes
written. -/
theorem ctrReady_filled {s u : State} (hw : s.gen.buf.length = genWidth s.gen) (h : ctrReady s = .filled u) :
    u.gen.buf.length = genWidth u.gen ∧ u.dataOut = s.dataOut ∧ u.outBuf = s.outBuf := by
  rcases ctrReady_cases s hw with ⟨_, he⟩ | ⟨_, v, hf, he⟩ | ⟨_, _, _, _, _, _, he⟩ | ⟨_, _, _, he⟩ <;>
    rw [he] at h <;> cases h
  · exact ⟨hw, rfl, rfl⟩
  · obtain ⟨_, hgen, _, _, _, _, hout, _, hdata⟩ := hf
    refine ⟨?_, hdata, hout⟩
    rw [State.withCtx_gen]
    rcases hgen with hg | hg <;> rw [hg]
    · exact hw
    · exact (genIncrement_parts s.gen hw).2.2.2

/-- The loop begun at `s` on the message `m` stands at `u` with `rest` still to come, and the loop on the
ciphertext written so far goes from `s` to the same state, having written back the part of `m` done. -/
structure CtrReplays (s : State) (m rest : Bytes) (u : State) : Prop where
  width : u.gen.buf.length = genWidth u.gen
  data : u.dataOut = s.dataOut
  replay : ∃ p d : Bytes, m = p ++ rest ∧ d.length = p.length ∧ u.outBuf = s.outBuf ++ d ∧
    ∀ i o tail, ctrRun (d ++ tail) (rebuffer i o s) = ctrRun tail (rebuffer i (o ++ p) u)

theorem ctrReplays_start {s : State} (hw : s.gen.buf.length = genWidth s.gen) (m : Bytes) :
    CtrReplays s m m s :=
  ⟨hw, rfl, [], [], rfl, rfl, by simp, by simp⟩

theorem CtrReplays.next {s : State} {m : Bytes} (b : Byte) (rest : Bytes) (v u : State)
    (h : CtrReplays s m (b :: rest) v) (hr : ctrReady v = .filled u) : CtrReplays s m rest (ctrByte b u) := by
  obtain ⟨hw, hd, p, d, hm, hl, hout, hrun⟩ := h
  obtain ⟨hwu, hdu, hou⟩ := ctrReady_filled hw hr
  refine ⟨hwu, hdu.trans hd, p ++ [b], d ++ [b ^^^ byteAt u.ctx.iv u.ctx.count], ?_, ?_, ?_, ?_⟩
  · rw [hm, List.append_assoc]; rfl
  · simp [hl]
  · rw [← List.append_assoc, ← hout, ← hou]; rfl
  · intro i o tail
    calc ctrRun (d ++ [b ^^^ byteAt u.ctx.iv u.ctx.count] ++ tail) (rebuffer i o s)
        = ctrRun ((b ^^^ byteAt u.ctx.iv u.ctx.count) :: tail) (rebuffer i (o ++ p) v) := by
          rw [List.append_assoc, hrun]; rfl
      _ = ctrRun tail (ctrByte (b ^^^ byteAt u.ctx.iv u.ctx.count) (rebuffer i (o ++ p) u)) :=
          ctrRun_filled _ _ _ _ (ctrReady_rebuffer i (o ++ p) hr)
      _ = ctrRun tail (rebuffer i (o ++ (p ++ [b])) (ctrByte b u)) := by
          rw [ctrByte_rebuffer, List.append_assoc]

/-- A refill that raises ends the command with a status other than `OK`. -/
theorem not_answeredOk_of_raised {s u v : State} {cls cause : Byte} {out : Bytes}
    (hw : u.gen.buf.length = genWidth u.gen) (hd : u.dataOut = s.dataOut)
    (hr : ctrReady u = .raised cls cause v) : ¬ AnsweredOk s (raiseStatus cls cause v) out := by
  rcases ctrReady_cases u hw with ⟨_, he⟩ | ⟨_, _, _, he⟩ | ⟨_, _, _, _, hne, hf, he⟩ | ⟨_, _, _, he⟩ <;>
    rw [he] at hr <;> cases hr
  obtain ⟨_, _, _, _, _, _, _, _, hdata⟩ := hf
  rw [raiseStatus_eq_answered, answeredOk_answered (hdata.trans hd)]
  exact fun h => hne h.1

/-- A refill that waits leaves the command in flight. -/
theorem not_answeredOk_of_waiting {s u v : State} {out : Bytes} (hw : u.gen.buf.length = genWidth u.gen)
    (hr : ctrReady u = .waiting v) : ¬ AnsweredOk s v out := by
  rcases ctrReady_cases u hw with ⟨_, he⟩ | ⟨_, _, _, he⟩ | ⟨_, _, _, _, _, _, he⟩ | ⟨_, _, hf, he⟩ <;>
    rw [he] at hr <;> cases hr
  obtain ⟨_, _, rfl⟩ := hf
  exact fun h => nomatch h.1

theorem ctr_restores {s : State} (hs : SlotsInv s) {m c : Bytes}
    (hok : AnsweredOk s (ctrRun m (allocate m s)) c) :
    Restores .ctr s (ctrRun m (allocate m s)) (ctrRun c (allocate c s)) m c := by
  rcases ctrRun_cases (CtrReplays (allocate m s) m) CtrReplays.next m (allocate m s)
      (ctrReplays_start (s := allocate m s) hs.gen.bufLength m) with
    ⟨u, h, hend⟩ | ⟨_, _, u, _, _, _, h, hr, hend⟩ | ⟨_, _, u, _, h, hr, hend⟩
  · obtain ⟨_, hd, p, d, hm, hl, hout, hrun⟩ := h
    rw [List.append_nil] at hm
    subst hm
    rw [hend] at hok ⊢
    have hc : d = c := by rw [← (answeredOk_finishRun hd).mp hok, hout]; rfl
    subst hc
    have hdec : ctrRun d (allocate d s) = finishRun (rebuffer d m u) :=
      calc ctrRun d (allocate d s)
          = ctrRun (d ++ []) (rebuffer d [] (allocate m s)) := by rw [List.append_nil]; rfl
        _ = finishRun (rebuffer d m u) := hrun d [] []
    rw [hdec]
    exact finishRun_restores ⟨rfl, rfl, rfl, rfl, fun _ => rfl⟩ hd hl rfl
  · exact absurd (hend ▸ hok) (not_answeredOk_of_raised h.width h.data hr)
  · exact absurd (hend ▸ hok) (not_answeredOk_of_waiting h.width hr)

/-! ## Every mode -/

/-- A legal segment is at least one byte and at most a block (rule R26). -/
theorem segmentBytes_bounds {seg bs : Nat} (h : segmentSizeOk seg bs = true) :
    0 < segmentBytes seg ∧ segmentBytes seg ≤ bs := by
  simp only [segmentSizeOk, Bool.and_eq_true, decide_eq_true_eq, beq_iff_eq] at h
  unfold segmentBytes
  omega

theorem variant_restores {md : Mode} {s : State} {m c : Bytes} (hs : SlotsInv s) (hv : s.ctx.valid = true)
    (hmd : s.ctx.mode = some md) (hlen : lengthCause s.ctx s.bs m.length = none)
    (hok : AnsweredOk s (encryptVariant md (allocate m s)) c) :
    Restores md s (encryptVariant md (allocate m s)) (decryptVariant md (allocate c s)) m c := by
  have hbs : 0 < s.bs := hs.blockSizePos
  simp only [lengthCause, hmd] at hlen
  cases md with
  | ecb => exact blockLoop_restores hs hbs (ecb_unitInverts s) (by simpa using hlen) hok
  | cbc => exact blockLoop_restores hs hbs (cbc_unitInverts s) (by simpa using hlen) hok
  | cfb =>
    obtain ⟨hpos, hle⟩ := segmentBytes_bounds (hs.ctx.segmentOk hv hmd)
    exact blockLoop_restores hs hpos (cfb_unitInverts s hle) (by simpa using hlen) hok
  | pgp =>
    exact unitLoop_restores hs (pgp_unitInverts s) (cut := id) (fun ys _ => List.flatMap_singleton' ys)
      (List.flatMap_singleton' m) (fun _ _ => rfl) hok
  | ofb => exact blockLoop_restores hs hbs (ofb_unitInverts s) (by simpa using hlen) hok
  | ctr => exact ctr_restores hs hok

theorem exec_encrypt_valid {s : State} (hv : s.ctx.valid = true) (buf : Bytes) :
    exec (.encrypt buf) s = dataPhase encryptVariant buf s := by
  simp [exec, execEncrypt, hv]

theorem exec_decrypt_valid {s : State} (hv : s.ctx.valid = true) (hp : s.ctx.prfMode = false) (buf : Bytes) :
    exec (.decrypt buf) s = dataPhase decryptVariant buf s := by
  simp [exec, execDecrypt, hv, hp]

/-- Settles O45: an empty message touches nothing, a refused one is no success, and otherwise `DECRYPT c` passes
the checks `ENCRYPT m` passed and `variant_restores` compares the two data phases. -/
theorem decryptInvertsEncrypt : Obligations.DecryptInvertsEncrypt := by
  intro s t m c hs hv hp henc hok
  rw [exec_encrypt_valid hv] at henc
  rw [exec_decrypt_valid hv hp]
  rcases dataPhase_cases _ _ _ _ henc with
    ⟨rfl, rfl⟩ | ⟨_, _, _, rfl⟩ | ⟨_, _, _, rfl⟩ | ⟨hne, hlen, halloc, md, hmd, rfl⟩
  · rw [complete_eq_answered] at hok ⊢
    obtain ⟨-, rfl⟩ := (answeredOk_answered rfl).mp hok
    exact ⟨_, by rw [← complete_eq_answered]; rfl, hok, rfl, rfl, rfl, rfl, fun _ => rfl⟩
  · exact absurd hok (not_answeredOk_raise _ s c)
  · exact absurd hok (not_answeredOk_raise _ s c)
  · have h := variant_restores hs hv hmd hlen hok
    have hcne : c ≠ [] := by
      rw [← List.length_pos_iff, h.length]
      exact List.length_pos_iff.mpr hne
    exact ⟨_, dataPhase_runs decryptVariant c s md hcne hmd (h.length ▸ hlen) (h.length ▸ halloc), h.answer,
      h.iv, h.count, h.gen, h.replies, fun hcbc => h.oldCipher fun he => hcbc (he ▸ hmd)⟩

end Sys2Proof.RoundTrip
end

section
/-! PROOFS of O7, O8, O11, O54 to O57: the two slots over a command and over a step. `exec_cases` says once what a
command can write (`Writes` for the commands that answer at once, `DataRun` for the data phase of `ENCRYPT` and
`DECRYPT`), and `Keeps` what a data phase keeps wherever it stands; the frame statements are read off these. The
invariant needs the registers besides: `Running` holds along the loop over units, `CtrLoop` along the byte loop of
CTR, also when it goes on after a wait. -/

open Sys2Proof Sys2Proof.Machine Sys2Proof.Spec

namespace Sys2Proof.Slots

/-! ## The fields of an answered state -/

section Answered
variable (s : State) (status : Word) (result : Bytes)

@[simp] theorem answered_ctx : (answered s status result).ctx = s.ctx := rfl
@[simp] theorem answered_gen : (answered s status result).gen = s.gen := rfl
@[simp] theorem answered_params : (answered s status result).params = s.params := rfl
@[simp] theorem answered_cmdPort : (answered s status result).cmdPort = s.cmdPort := rfl
@[simp] theorem answered_dataOut :
    (answered s status result).dataOut = s.dataOut ++ [{ status := status, result := result }] := rfl

end Answered

/-! ## What a command writes -/

/-- What a command writes before its response: nothing, or in one of the two slots. `ENCRYPT` and `DECRYPT` stand
here only as far as they answer without a data phase. -/
inductive Writes (s : State) : Instr → State → Prop
  | nothing (i : Instr) : Writes s i s
  | initRequest (mode : Byte) (csrc : CounterSource) (key iv : Bytes) (seg : Word) :
      Writes s (.ctxNew mode csrc key iv seg) s.noteInit
  | newContext {mode : Byte} {csrc : CounterSource} {key iv : Bytes} {seg : Word} {st : CipherState}
      (checks : ctxNewCause mode csrc key iv seg s = none)
      (init : cipherInit s.params.cipher key = some st) :
      Writes s (.ctxNew mode csrc key iv seg) (s.noteInit.withCtx (newContext mode csrc st iv seg s))
  | clearContext : Writes s .ctxDestroy (s.withCtx (Context.cleared s.bs))
  | prfMode (valid : s.ctx.valid = true) (v : Bool) : Writes s (.setPrf v) (s.withCtx (s.ctx.withPrfMode v))
  | realign (valid : s.ctx.valid = true) (pgp : s.ctx.mode = some .pgp) :
      Writes s .sync (s.withCtx (syncContext (pgpFullValue s) s.bs s.ctx))
  | newGenerator {i : Instr} (construction : isGeneratorCommand i = true) (empty : s.gen.valid = false)
      {pfx sfx initial : Bytes} (checks : genParamBad pfx sfx initial = false) (e : Endianness) (aw ds : Bool) :
      Writes s i (s.withGen (newGenerator e aw ds pfx sfx initial))
  | invoke (valid : s.gen.valid = true) (unblocked : genBlocked s.gen = false) :
      Writes s .genInvoke (s.withGen (genIncrement s.gen))
  | clearGenerator : Writes s .genDestroy (s.withGen Generator.cleared)

/-- The command `i` ends with a response after what it `Writes`. -/
def Answers (s : State) (i : Instr) (t : State) : Prop :=
  ∃ u status result, Writes s i u ∧ t = answered u status result

/-- The data phase of `ENCRYPT` or `DECRYPT` in the mode of the context, which is valid. -/
def DataRun (s t : State) : Prop :=
  s.ctx.valid = true ∧ ∃ variant m buf, (variant = encryptVariant ∨ variant = decryptVariant) ∧
    s.ctx.mode = some m ∧ t = variant m (allocate buf s)

theorem answers_complete {s u : State} {i : Instr} (h : Writes s i u) (result : Bytes) :
    Answers s i (complete result u) :=
  ⟨u, 0, result, h, complete_eq_answered result u⟩

theorem answers_raise {s u : State} {i : Instr} (h : Writes s i u) (c : Cause) : Answers s i (raise c u) :=
  ⟨u, _, [], h, raise_eq_answered c u⟩

theorem execCtxNew_answers {mode : Byte} {csrc : CounterSource} {key iv : Bytes} {seg : Word} {s t : State}
    (h : execCtxNew mode csrc key iv seg s = .next t) : Answers s (.ctxNew mode csrc key iv seg) t := by
  rcases execCtxNew_cases _ _ _ _ _ _ _ h with ⟨c, _, rfl⟩ | ⟨_, _, rfl⟩ | ⟨hc, st, hi, rfl⟩
  · exact answers_raise (.nothing _) c
  · exact answers_raise (.initRequest ..) _
  · exact answers_complete (.newContext hc hi) _

theorem contextRead_answers {result : Bytes} {s t : State} (i : Instr) (h : contextRead result s = .next t) :
    Answers s i t := by
  rcases contextRead_cases _ _ _ h with ⟨_, rfl⟩ | ⟨_, rfl⟩
  · exact answers_raise (.nothing i) _
  · exact answers_complete (.nothing i) _

theorem generatorRead_answers {result : Bytes} {s t : State} (i : Instr) (h : generatorRead result s = .next t) :
    Answers s i t := by
  rcases generatorRead_cases _ _ _ h with ⟨_, rfl⟩ | ⟨_, rfl⟩
  · exact answers_raise (.nothing i) _
  · exact answers_complete (.nothing i) _

theorem genConstruct_answers {e : Endianness} {aw ds : Bool} {pfx sfx initial : Bytes} {s t : State} {i : Instr}
    (hi : isGeneratorCommand i = true) (h : genConstruct e aw ds pfx sfx initial s = .next t) :
    Answers s i t := by
  rcases genConstruct_cases _ _ _ _ _ _ _ _ h with ⟨_, rfl⟩ | ⟨_, _, rfl⟩ | ⟨hv, hb, rfl⟩
  · exact answers_raise (.nothing i) _
  · exact answers_raise (.nothing i) _
  · exact answers_complete (.newGenerator hi hv hb e aw ds) _

theorem execCtxDestroy_answers {s t : State} (h : execCtxDestroy s = .next t) : Answers s .ctxDestroy t := by
  unfold execCtxDestroy at h
  split_ifs at h <;> cases h
  · exact answers_raise (.nothing _) _
  · exact answers_complete .clearContext _

theorem execSetPrf_answers {v : Bool} {s t : State} (h : execSetPrf v s = .next t) :
    Answers s (.setPrf v) t := by
  unfold execSetPrf at h
  split_ifs at h with hv <;> cases h
  · exact answers_raise (.nothing _) _
  · exact answers_complete (.prfMode (by simpa using hv) v) _

theorem execSync_answers {s t : State} (h : execSync s = .next t) : Answers s .sync t := by
  unfold execSync at h
  split_ifs at h with hv hm <;> cases h
  · exact answers_raise (.nothing _) _
  · exact answers_raise (.nothing _) _
  · exact answers_complete (.realign (by simpa using hv) (by simpa using hm)) _

theorem execGenInvoke_answers {s t : State} (h : execGenInvoke s = .next t) : Answers s .genInvoke t := by
  unfold execGenInvoke at h
  split_ifs at h with hv hb <;> cases h
  · exact answers_raise (.nothing _) _
  · exact answers_raise (.nothing _) _
  · exact answers_complete (.invoke (by simpa using hv) (by simpa using hb)) _

theorem execGenDestroy_answers {s t : State} (h : execGenDestroy s = .next t) : Answers s .genDestroy t := by
  unfold execGenDestroy at h
  split_ifs at h <;> cases h
  · exact answers_raise (.nothing _) _
  · exact answers_complete .clearGenerator _

/-- The front end of `ENCRYPT` and `DECRYPT` on a valid context answers at once or reaches the data phase. -/
theorem dataPhase_answers_or_runs {variant : Mode → State → State} {buf : Bytes} {s t : State} (i : Instr)
    (hvar : variant = encryptVariant ∨ variant = decryptVariant) (hv : s.ctx.valid = true)
    (h : dataPhase variant buf s = .next t) : Answers s i t ∨ DataRun s t := by
  rcases dataPhase_cases _ _ _ _ h with ⟨_, rfl⟩ | ⟨_, _, _, rfl⟩ | ⟨_, _, _, rfl⟩ | ⟨_, _, _, m, hm, rfl⟩
  · exact .inl (answers_complete (.nothing i) _)
  · exact .inl (answers_raise (.nothing i) _)
  · exact .inl (answers_raise (.nothing i) _)
  · exact .inr ⟨hv, variant, m, buf, hvar, hm, rfl⟩

theorem execEncrypt_answers_or_runs {buf : Bytes} {s t : State} (h : execEncrypt buf s = .next t) :
    Answers s (.encrypt buf) t ∨ DataRun s t := by
  unfold execEncrypt at h
  split_ifs at h with hv
  · cases h; exact .inl (answers_raise (.nothing _) _)
  · exact dataPhase_answers_or_runs _ (.inl rfl) (by simpa using hv) h

theorem execDecrypt_answers_or_runs {buf : Bytes} {s t : State} (h : execDecrypt buf s = .next t) :
    Answers s (.decrypt buf) t ∨ DataRun s t := by
  unfold execDecrypt at h
  split_ifs at h with hv hp
  · cases h; exact .inl (answers_raise (.nothing _) _)
  · cases h; exact .inl (answers_raise (.nothing _) _)
  · exact dataPhase_answers_or_runs _ (.inr rfl) (by simpa using hv) h

/-- Everything a command can do when it answers a next state. -/
theorem exec_cases {i : Instr} {s t : State} (h : exec i s = .next t) :
    Answers s i t ∨ (isDataCommand i = true ∧ DataRun s t) := by
  cases i with
  | encrypt buf => exact (execEncrypt_answers_or_runs h).imp_right (⟨rfl, ·⟩)
  | decrypt buf => exact (execDecrypt_answers_or_runs h).imp_right (⟨rfl, ·⟩)
  | ctxNew mode csrc key iv seg => exact .inl (execCtxNew_answers h)
  | sync => exact .inl (execSync_answers h)
  | setPrf v => exact .inl (execSetPrf_answers h)
  | getIv => exact .inl (contextRead_answers _ h)
  | getMode => exact .inl (contextRead_answers _ h)
  | getBlockSize => exact .inl (contextRead_answers _ h)
  | getKeySize => exact .inl (contextRead_answers _ h)
  | ctxDestroy => exact .inl (execCtxDestroy_answers h)
  | genNewBe aw ds pfx sfx initial => exact .inl (genConstruct_answers rfl h)
  | genNewLe aw ds pfx sfx initial => exact .inl (genConstruct_answers rfl h)
  | genInvoke => exact .inl (execGenInvoke_answers h)
  | genNextValue => exact .inl (generatorRead_answers _ h)
  | genGetCarry => exact .inl (generatorRead_answers _ h)
  | genDestroy => exact .inl (execGenDestroy_answers h)

/-! ## What a data phase keeps -/

/-- The fields of a context that no data phase writes, the registers blanked. -/
def identity (c : Context) : Context := { c with iv := [], oldCipher := [], count := 0, tmp := [] }

/-- One invocation by a refill: from the engine, on a generator that is there and not blocked (rules R192 to
R194). -/
def Draws (src : CounterSource) (g g' : Generator) : Prop :=
  src ≠ .external ∧ g.valid = true ∧ genBlocked g = false ∧ g' = genIncrement g

/-- Any number of such invocations. -/
def Drawn (src : CounterSource) : Generator → Generator → Prop := Relation.ReflTransGen (Draws src)

theorem drawn_eq_of_external {g g' : Generator} (h : Drawn .external g g') : g' = g := by
  rcases h.cases_head with rfl | ⟨_, ⟨hne, _⟩, _⟩
  · rfl
  · exact absurd rfl hne

theorem drawn_eq_of_blocked {src : CounterSource} {g g' : Generator} (hb : genBlocked g = true)
    (h : Drawn src g g') : g' = g := by
  rcases h.cases_head with rfl | ⟨_, ⟨_, _, hnb, _⟩, _⟩
  · rfl
  · simp [hb] at hnb

/-- What stands at `t` as at `s`, when a data phase has gone from `s` to `t`, ended or not. -/
structure Keeps (s t : State) : Prop where
  identity : identity t.ctx = identity s.ctx
  gen : Drawn s.ctx.csrc s.gen t.gen
  params : t.params = s.params
  cmdPort : t.cmdPort = s.cmdPort
  dataOut : s.dataOut <+: t.dataOut

theorem identity_eq_iff {c d : Context} : identity c = identity d ↔
    c.valid = d.valid ∧ c.mode = d.mode ∧ c.st = d.st ∧ c.segmentSize = d.segmentSize ∧ c.csrc = d.csrc ∧
      c.prfMode = d.prfMode := by
  simp [identity]

theorem Keeps.csrc {s t : State} (h : Keeps s t) : t.ctx.csrc = s.ctx.csrc := by
  obtain ⟨_, _, _, _, hcsrc, _⟩ := identity_eq_iff.mp h.identity
  exact hcsrc

theorem Keeps.bs {s t : State} (h : Keeps s t) : t.bs = s.bs := congrArg Params.blockSize h.params

/-- Nothing but the registers of the context, the buffers and the sequencing state has changed. -/
theorem keeps_of_gen_eq {s t : State} (hid : identity t.ctx = identity s.ctx) (hg : t.gen = s.gen)
    (hp : t.params = s.params) (hc : t.cmdPort = s.cmdPort) (hd : t.dataOut = s.dataOut) : Keeps s t :=
  ⟨hid, hg ▸ .refl, hp, hc, hd ▸ List.prefix_rfl⟩

theorem Keeps.refl (s : State) : Keeps s s := keeps_of_gen_eq rfl rfl rfl rfl rfl

theorem Keeps.trans {s t u : State} (h : Keeps s t) (h' : Keeps t u) : Keeps s u where
  identity := h'.identity.trans h.identity
  gen := Relation.ReflTransGen.trans h.gen (h.csrc ▸ h'.gen)
  params := h'.params.trans h.params
  cmdPort := h'.cmdPort.trans h.cmdPort
  dataOut := h.dataOut.trans h'.dataOut

theorem Keeps.answered {s t : State} (h : Keeps s t) (status : Word) (result : Bytes) :
    Keeps s (answered t status result) :=
  { h with dataOut := h.dataOut.trans (List.prefix_append _ _) }

theorem Keeps.finishRun {s t : State} (h : Keeps s t) : Keeps s (finishRun t) :=
  h.answered okStatus t.outBuf

/-! ### The loop over units -/

/-- A unit of a mode other than CTR writes registers of the context and nothing else that is kept. -/
def UnitKeeps {α : Type} (unit : State → α → State × Bytes) : Prop :=
  ∀ s x, Keeps s (unit s x).1 ∧ (unit s x).1.gen = s.gen

theorem runUnits_keeps_slots {α : Type} {unit : State → α → State × Bytes} (h : UnitKeeps unit) (us : List α)
    (s : State) : Keeps s (runUnits unit us s) ∧ (runUnits unit us s).gen = s.gen := by
  refine runUnits_keeps (fun u => Keeps s u ∧ u.gen = s.gen) unit us (fun u x _ hu => ?_) s ⟨.refl s, rfl⟩
  obtain ⟨hk, hg⟩ := h u x
  have hw : Keeps (unit u x).1 (writeOut (unit u x).2 (unit u x).1) := keeps_of_gen_eq rfl rfl rfl rfl rfl
  exact ⟨(hu.1.trans hk).trans hw, hg.trans hu.2⟩

theorem ecbEncBlock_keeps : UnitKeeps ecbEncBlock := fun _ _ => ⟨keeps_of_gen_eq rfl rfl rfl rfl rfl, rfl⟩
theorem ecbDecBlock_keeps : UnitKeeps ecbDecBlock := fun _ _ => ⟨keeps_of_gen_eq rfl rfl rfl rfl rfl, rfl⟩
theorem cbcEncBlock_keeps : UnitKeeps cbcEncBlock := fun _ _ => ⟨keeps_of_gen_eq rfl rfl rfl rfl rfl, rfl⟩
theorem cbcDecBlock_keeps : UnitKeeps cbcDecBlock := fun _ _ => ⟨keeps_of_gen_eq rfl rfl rfl rfl rfl, rfl⟩
theorem cfbEncSegment_keeps : UnitKeeps cfbEncSegment := fun _ _ => ⟨keeps_of_gen_eq rfl rfl rfl rfl rfl, rfl⟩
theorem cfbDecSegment_keeps : UnitKeeps cfbDecSegment := fun _ _ => ⟨keeps_of_gen_eq rfl rfl rfl rfl rfl, rfl⟩
theorem ofbBlock_keeps : UnitKeeps ofbBlock := fun _ _ => ⟨keeps_of_gen_eq rfl rfl rfl rfl rfl, rfl⟩

theorem pgpReady_keeps (s : State) : Keeps s (pgpReady s) ∧ (pgpReady s).gen = s.gen := by
  unfold pgpReady
  split_ifs
  · exact ⟨keeps_of_gen_eq rfl rfl rfl rfl rfl, rfl⟩
  · exact ⟨.refl s, rfl⟩

theorem pgpEncByte_keeps : UnitKeeps pgpEncByte := fun s _ =>
  ⟨(pgpReady_keeps s).1.trans (keeps_of_gen_eq rfl rfl rfl rfl rfl), (pgpReady_keeps s).2⟩

theorem pgpDecByte_keeps : UnitKeeps pgpDecByte := fun s _ =>
  ⟨(pgpReady_keeps s).1.trans (keeps_of_gen_eq rfl rfl rfl rfl rfl), (pgpReady_keeps s).2⟩

/-! ### The byte loop of CTR -/

/-- The state a refill ends in. -/
def refillState : Refill → State
  | .filled s => s
  | .raised _ _ s => s
  | .waiting s => s

theorem fillFrom_keeps (v : Bytes) (s : State) : Keeps s (fillFrom v s) := keeps_of_gen_eq rfl rfl rfl rfl rfl

theorem startBlock_keeps (r : Refill) : Keeps (refillState r) (refillState r.startBlock) := by
  cases r with
  | filled s => exact keeps_of_gen_eq rfl rfl rfl rfl rfl
  | raised cls cause s => exact .refl s
  | waiting s => exact .refl s

theorem acceptReply_keeps (r : CounterReply) (s : State) : Keeps s (refillState (acceptReply r s)) := by
  rcases acceptReply_cases r s with ⟨_, he⟩ | ⟨_, _, he⟩ | ⟨_, _, _, he⟩ <;> rw [he]
  · exact .refl s
  · exact .refl s
  · exact fillFrom_keeps _ s

theorem externalRefill_keeps (s : State) : Keeps s (refillState (externalRefill s)) := by
  unfold externalRefill
  split
  · exact keeps_of_gen_eq rfl rfl rfl rfl rfl
  · next r rest _ =>
    have hsent : Keeps s (s.noteCounter.withReplies rest) := keeps_of_gen_eq rfl rfl rfl rfl rfl
    exact hsent.trans (acceptReply_keeps r _)

/-- A refill on the engine invokes the generator at most once, and only one it may draw from. -/
theorem draw_keeps {s : State} (hx : s.ctx.csrc ≠ .external) (hv : s.gen.valid = true)
    (hb : genBlocked s.gen = false) : Keeps s (s.withGen (genIncrement s.gen)) :=
  ⟨rfl, .single ⟨hx, hv, hb, rfl⟩, rfl, rfl, List.prefix_rfl⟩

theorem shortcutRefill_keeps {s : State} (hx : s.ctx.csrc ≠ .external) (hv : s.gen.valid = true) :
    Keeps s (refillState (shortcutRefill s)) := by
  rcases shortcutRefill_cases s with ⟨_, he⟩ | ⟨_, _, he⟩ | ⟨hb, _, he⟩ <;> rw [he]
  · exact .refl s
  · exact .refl s
  · exact (draw_keeps hx hv hb).trans (fillFrom_keeps s.gen.buf _)

theorem genericRefill_keeps {s : State} (hx : s.ctx.csrc ≠ .external) (hv : s.gen.valid = true) :
    Keeps s (refillState (genericRefill s)) := by
  rcases genericRefill_cases s with ⟨_, he⟩ | ⟨hb, _, he⟩ | ⟨hb, _, he⟩ <;> rw [he]
  · exact .refl s
  · exact draw_keeps hx hv hb
  · exact (draw_keeps hx hv hb).trans (fillFrom_keeps s.gen.buf _)

theorem refillCtr_keeps (s : State) : Keeps s (refillState (refillCtr s)) := by
  unfold refillCtr
  split_ifs with hx hg
  · exact externalRefill_keeps s
  · exact .refl s
  · exact shortcutRefill_keeps hx (by simpa using hg)
  · exact genericRefill_keeps hx (by simpa using hg)

theorem ctrReady_keeps (s : State) : Keeps s (refillState (ctrReady s)) := by
  unfold ctrReady
  split_ifs
  · exact (refillCtr_keeps s).trans (startBlock_keeps _)
  · exact .refl s

theorem ctrReady_filled_keeps {s u : State} (h : ctrReady s = .filled u) : Keeps s u := by
  simpa [h, refillState] using ctrReady_keeps s

theorem ctrReady_raised_keeps {s u : State} {cls cause : Byte} (h : ctrReady s = .raised cls cause u) :
    Keeps s u := by
  simpa [h, refillState] using ctrReady_keeps s

theorem ctrReady_waiting_keeps {s u : State} (h : ctrReady s = .waiting u) : Keeps s u := by
  simpa [h, refillState] using ctrReady_keeps s

theorem ctrByte_keeps (b : Byte) (s : State) : Keeps s (ctrByte b s) := keeps_of_gen_eq rfl rfl rfl rfl rfl

theorem ctrRun_keeps (input : Bytes) (s : State) : Keeps s (ctrRun input s) := by
  rcases ctrRun_cases (fun _ u => Keeps s u)
      (fun b _ _ u hk hr => (hk.trans (ctrReady_filled_keeps hr)).trans (ctrByte_keeps b u)) input s (.refl s) with
    ⟨u, hk, hend⟩ | ⟨_, _, _, _, _, _, hk, hr, hend⟩ | ⟨_, _, _, _, hk, hr, hend⟩ <;> rw [hend]
  · exact hk.finishRun
  · exact (hk.trans (ctrReady_raised_keeps hr)).answered _ _
  · exact hk.trans (ctrReady_waiting_keeps hr)

theorem resumeRefill_keeps (s : State) : Keeps s (resumeRefill s) := by
  unfold resumeRefill
  split
  · exact .refl s
  · next r rest _ =>
    have htaken : Keeps s ((s.withReplies rest).withStage .run) := keeps_of_gen_eq rfl rfl rfl rfl rfl
    have hk := (htaken.trans (acceptReply_keeps r _)).trans (startBlock_keeps _)
    split
    · next u he => rw [he] at hk; exact hk.trans (ctrRun_keeps _ u)
    · next he => rw [he] at hk; exact hk.answered _ _
    · next he => rw [he] at hk; exact hk

/-! ### Every mode -/

theorem allocate_keeps (buf : Bytes) (s : State) : Keeps s (allocate buf s) :=
  keeps_of_gen_eq rfl rfl rfl rfl rfl

theorem finishUnits_keeps {α : Type} {unit : State → α → State × Bytes} (h : UnitKeeps unit) (us : List α)
    (s : State) : Keeps s (finishRun (runUnits unit us s)) ∧ (finishRun (runUnits unit us s)).gen = s.gen :=
  (runUnits_keeps_slots h us s).imp_left Keeps.finishRun

/-- Only the byte loop of CTR writes the generator. -/
theorem variant_keeps {variant : Mode → State → State}
    (hvar : variant = encryptVariant ∨ variant = decryptVariant) (m : Mode) (s : State) :
    Keeps s (variant m s) ∧ (m ≠ .ctr → (variant m s).gen = s.gen) := by
  rcases hvar with rfl | rfl
  · cases m with
    | ecb => exact (finishUnits_keeps ecbEncBlock_keeps _ s).imp_right fun h _ => h
    | cbc => exact (finishUnits_keeps cbcEncBlock_keeps _ s).imp_right fun h _ => h
    | cfb => exact (finishUnits_keeps cfbEncSegment_keeps _ s).imp_right fun h _ => h
    | pgp => exact (finishUnits_keeps pgpEncByte_keeps _ s).imp_right fun h _ => h
    | ofb => exact (finishUnits_keeps ofbBlock_keeps _ s).imp_right fun h _ => h
    | ctr => exact ⟨ctrRun_keeps _ s, fun hne => absurd rfl hne⟩
  · cases m with
    | ecb => exact (finishUnits_keeps ecbDecBlock_keeps _ s).imp_right fun h _ => h
    | cbc => exact (finishUnits_keeps cbcDecBlock_keeps _ s).imp_right fun h _ => h
    | cfb => exact (finishUnits_keeps cfbDecSegment_keeps _ s).imp_right fun h _ => h
    | pgp => exact (finishUnits_keeps pgpDecByte_keeps _ s).imp_right fun h _ => h
    | ofb => exact (finishUnits_keeps ofbBlock_keeps _ s).imp_right fun h _ => h
    | ctr => exact ⟨ctrRun_keeps _ s, fun hne => absurd rfl hne⟩

theorem DataRun.keeps {s t : State} (h : DataRun s t) : Keeps s t := by
  obtain ⟨_, _, m, buf, hvar, _, rfl⟩ := h
  exact (allocate_keeps buf s).trans (variant_keeps hvar m _).1

theorem DataRun.gen_eq {s t : State} (h : DataRun s t) (hne : s.ctx.mode ≠ some .ctr) : t.gen = s.gen := by
  obtain ⟨_, _, m, buf, hvar, hm, rfl⟩ := h
  exact (variant_keeps hvar m _).2 fun hctr => hne (hctr ▸ hm)

/-! ## The frame statements -/

/-- Settles O54: of the commands that write the generator the construction finds a slot in use, the invocation and
the refills find it blocked, and `GEN_DESTROY` is excluded. -/
theorem exhaustedGeneratorStaysExhausted : Obligations.ExhaustedGeneratorStaysExhausted := by
  intro i s t hs hv hcarry hwrap h hi
  have hblocked : genBlocked s.gen = true := by simp [genBlocked, hcarry, hwrap]
  have hgen : t.gen = s.gen := by
    rcases exec_cases h with ⟨u, _, _, hw, rfl⟩ | ⟨_, hrun⟩
    · rw [answered_gen]
      cases hw with
      | newGenerator _ hempty => simp [hv] at hempty
      | invoke _ hfree => simp [hblocked] at hfree
      | clearGenerator => exact absurd rfl hi
      | _ => rfl
    · exact drawn_eq_of_blocked hblocked hrun.keeps.gen
  exact ⟨hgen, by rw [hgen]; exact hs.gen.carryZero hcarry⟩

theorem Writes.ctx_eq {s u : State} {i : Instr} (h : Writes s i u) (hi : isGeneratorCommand i = true) :
    u.ctx = s.ctx := by
  cases h with
  | newContext | clearContext | prfMode | realign => cases hi
  | _ => rfl

theorem Writes.gen_eq {s u : State} {i : Instr} (h : Writes s i u) (hi : isGeneratorCommand i = false) :
    u.gen = s.gen := by
  cases h with
  | newGenerator hgen => simp [hgen] at hi
  | invoke | clearGenerator => cases hi
  | _ => rfl

/-- Outside the slots a command writes only the observer's count of `Init` requests before it answers. -/
theorem Writes.outside {s u : State} {i : Instr} (h : Writes s i u) :
    u.params = s.params ∧ u.cmdPort = s.cmdPort ∧ u.dataOut = s.dataOut := by
  cases h <;> exact ⟨rfl, rfl, rfl⟩

theorem dataCommand_not_generatorCommand {i : Instr} (h : isDataCommand i = true) :
    isGeneratorCommand i = false := by
  cases i with
  | encrypt | decrypt => rfl
  | _ => cases h

/-- Settles O57: a command that answers at once writes one slot, and a data phase keeps the generator but where
CTR draws from the engine. -/
theorem slotsAreSeparate : Obligations.SlotsAreSeparate := by
  intro i s t h
  rcases exec_cases h with ⟨u, status, result, hw, rfl⟩ | ⟨hdata, hrun⟩
  · obtain ⟨hp, hc, hd⟩ := hw.outside
    rw [answered_ctx, answered_gen, answered_params, answered_cmdPort, answered_dataOut]
    exact ⟨hw.ctx_eq, fun hi hne => absurd (hw.gen_eq hi) hne, hp, hc, hd ▸ List.prefix_append _ _⟩
  · have hk := hrun.keeps
    have hi := dataCommand_not_generatorCommand hdata
    refine ⟨fun hgen => by simp [hi] at hgen, fun _ hne => ⟨hdata, ?_, ?_⟩, hk.params, hk.cmdPort, hk.dataOut⟩
    · by_contra hctr
      exact hne (hrun.gen_eq hctr)
    · intro hext
      exact hne (drawn_eq_of_external (hext ▸ hk.gen))

/-- What a command that answers at once does to the context: nothing that a data phase keeps, or the write of
`CTX_NEW`, `SET_PRF` or `CTX_DESTROY`. -/
theorem Writes.context_cases {s u : State} {i : Instr} (h : Writes s i u) :
    identity u.ctx = identity s.ctx ∨
    (s.ctx.valid = false ∧ u.ctx.prfMode = false) ∨
    (∃ v, i = .setPrf v ∧ u.ctx = s.ctx.withPrfMode v) ∨
    (i = .ctxDestroy ∧ u.ctx = Context.cleared s.bs) := by
  cases h with
  | newContext checks => exact .inr (.inl ⟨(ctxNewCause_none _ _ _ _ _ _ checks).1, rfl⟩)
  | prfMode _ v => exact .inr (.inr (.inl ⟨v, rfl, rfl⟩))
  | clearContext => exact .inr (.inr (.inr ⟨rfl, rfl⟩))
  | realign =>
    left
    simp only [State.withCtx_ctx, syncContext]
    split_ifs <;> rfl
  | _ => exact .inl rfl

/-- What a step does to the context, likewise. -/
theorem step_context_cases {s t : State} (h : step s = .next t) :
    identity t.ctx = identity s.ctx ∨
    (s.ctx.valid = false ∧ t.ctx.prfMode = false) ∨
    (∃ v, NextCommand s (.setPrf v) ∧ t.ctx = s.ctx.withPrfMode v) ∨
    (NextCommand s .ctxDestroy ∧ t.ctx = Context.cleared s.bs) := by
  rcases step_cases s t h with ⟨_, _, rfl⟩ | ⟨hst, tr, rest, hport, hrun⟩ | ⟨_, rfl⟩
  · exact .inl rfl
  · rcases runTransaction_cases tr (accept rest s) with ⟨_, _, he⟩ | ⟨i, hdec, he⟩ <;> rw [he] at hrun
    · cases hrun
      exact .inl rfl
    · have hnext : NextCommand s i := ⟨hst, tr, rest, hport, hdec⟩
      rcases exec_cases hrun with ⟨u, _, _, hw, rfl⟩ | ⟨_, hdata⟩
      · rcases hw.context_cases with hid | hnew | ⟨v, rfl, hv⟩ | ⟨rfl, hc⟩
        · exact .inl hid
        · exact .inr (.inl hnew)
        · exact .inr (.inr (.inl ⟨v, hnext, hv⟩))
        · exact .inr (.inr (.inr ⟨hnext, hc⟩))
      · exact .inl hdata.keeps.identity
  · exact .inl (resumeRefill_keeps s).identity

/-- Settles O55. -/
theorem contextIdentityIsImmutable : Obligations.ContextIdentityIsImmutable := by
  intro s t hv h
  rcases step_context_cases h with hid | ⟨hempty, _⟩ | ⟨_, _, hp⟩ | ⟨hnext, hc⟩
  · obtain ⟨hvalid, hmode, hst, hseg, hcsrc, _⟩ := identity_eq_iff.mp hid
    exact .inl ⟨hvalid.trans hv, hmode, hst, hseg, hcsrc⟩
  · simp [hv] at hempty
  · rw [hp]
    exact .inl ⟨hv, rfl, rfl, rfl, rfl⟩
  · rw [hc]
    exact .inr ⟨rfl, hnext⟩

/-- Settles O56. An empty slot has the flag clear, as `CTX_NEW` leaves it. -/
theorem prfModeChangesOnlyBySetPrf : Obligations.PrfModeChangesOnlyBySetPrf := by
  intro s t hs h hne
  rcases step_context_cases h with hid | ⟨hempty, hnew⟩ | ⟨v, hnext, hp⟩ | ⟨hnext, hc⟩
  · obtain ⟨_, _, _, _, _, hprf⟩ := identity_eq_iff.mp hid
    exact absurd hprf hne
  · have hcleared : s.ctx.prfMode = false := by rw [hs.slots.ctx.emptySlot hempty]; rfl
    exact absurd (hnew.trans hcleared.symm) hne
  · rw [hp]
    exact .inl hnext
  · exact .inr ⟨by rw [hc]; rfl, hnext⟩

end Sys2Proof.Slots
end

section
/-! PROOFS of O7, O8, O11: the invariant of the slots and of the sequencing state. A command that answers at once is
read off `Writes`; along a data phase `Running` says that the registers have their lengths and `count` its range,
and `CtrLoop` adds where the byte loop of CTR stands in its buffers, whether it began with the command or goes on
after a wait. -/

open Sys2Proof Sys2Proof.Machine Sys2Proof.Spec

namespace Sys2Proof.Slots

/-! ## The generator slot -/

theorem generatorInv_cleared : GeneratorInv Generator.cleared where
  bufLength := rfl
  pLe := Nat.zero_le _
  nLe := Nat.zero_le _
  qLe := Nat.zero_le _
  emptySlot _ := rfl
  valuePos h := nomatch h
  carryZero h := nomatch h

theorem genParamBad_eq_false_iff (pfx sfx initial : Bytes) : genParamBad pfx sfx initial = false ↔
    1 ≤ initial.length ∧ initial.length ≤ genPartMax ∧ pfx.length ≤ genPartMax ∧ sfx.length ≤ genPartMax := by
  simp only [genParamBad, Bool.or_eq_false_iff, decide_eq_false_iff_not, Nat.not_lt]
  tauto

theorem generatorInv_newGenerator {pfx sfx initial : Bytes} (h : genParamBad pfx sfx initial = false)
    (e : Endianness) (aw ds : Bool) : GeneratorInv (newGenerator e aw ds pfx sfx initial) := by
  obtain ⟨hpos, hn, hp, hq⟩ := (genParamBad_eq_false_iff _ _ _).mp h
  exact
    { bufLength := by simp [newGenerator, genWidth, Nat.add_assoc]
      pLe := hp
      nLe := hn
      qLe := hq
      emptySlot := fun h => nomatch h
      valuePos := fun _ => hpos
      carryZero := fun h => nomatch h }

/-- A carry that comes out of the increment leaves the value all zero (rules R45, R221). -/
theorem generatorInv_genIncrement {g : Generator} (h : GeneratorInv g) (hv : g.valid = true) :
    GeneratorInv (genIncrement g) := by
  obtain ⟨_, hvalue, _, hlen⟩ := genIncrement_parts g h.bufLength
  exact
    { bufLength := hlen
      pLe := h.pLe
      nLe := h.nLe
      qLe := h.qLe
      emptySlot := fun he => by simp [hv] at he
      valuePos := fun _ => h.valuePos hv
      carryZero := fun hc => by
        rw [hvalue, incrementValue_wraps _ _ hc, genValue_length g h.bufLength, genIncrement_n] }

theorem generatorInv_drawn {src : CounterSource} {g g' : Generator} (h : GeneratorInv g) (hd : Drawn src g g') :
    GeneratorInv g' := by
  induction hd with
  | refl => exact h
  | tail _ hdraw ih =>
    obtain ⟨_, hv, _, rfl⟩ := hdraw
    exact generatorInv_genIncrement ih hv

/-! ## The context slot -/

theorem contextInv_cleared (bs : Nat) : ContextInv bs (Context.cleared bs) where
  ivLength := zeros_length bs
  oldCipherLength := zeros_length bs
  tmpLength := zeros_length bs
  countLe := Nat.zero_le bs
  emptySlot _ := rfl
  hasMode h := nomatch h
  hasKey h := nomatch h
  counterIffCtr h := nomatch h
  segmentOk h := nomatch h
  pgpCount h := nomatch h
  ctrCount h := nomatch h

/-- What the invariant says of the registers of a valid context in mode `m`: their lengths, and the range of
`count` (rule R30). -/
structure Registers (m : Mode) (bs : Nat) (c : Context) : Prop where
  iv : c.iv.length = bs
  oldCipher : c.oldCipher.length = bs
  tmp : c.tmp.length = bs
  countLe : c.count ≤ bs
  started : m = .pgp ∨ m = .ctr → 1 ≤ c.count

theorem registers_of_contextInv {m : Mode} {bs : Nat} {c : Context} (h : ContextInv bs c) (hv : c.valid = true)
    (hm : c.mode = some m) : Registers m bs c where
  iv := h.ivLength
  oldCipher := h.oldCipherLength
  tmp := h.tmpLength
  countLe := h.countLe
  started := by
    rintro (rfl | rfl)
    · exact (h.pgpCount hv hm).2
    · exact h.ctrCount hv hm

/-- New registers in a valid context keep its invariant. -/
theorem contextInv_of_registers {m : Mode} {bs : Nat} {c d : Context} (h : ContextInv bs c)
    (hv : c.valid = true) (hm : c.mode = some m) (hid : identity d = identity c) (hr : Registers m bs d) :
    ContextInv bs d := by
  obtain ⟨hdv, hdm, hst, hseg, hcsrc, _⟩ := identity_eq_iff.mp hid
  rw [hv] at hdv
  have hmode {k : Mode} (hk : d.mode = some k) : c.mode = some k := hdm ▸ hk
  have hsame {k : Mode} (hk : d.mode = some k) : m = k := Option.some.inj (hm.symm.trans (hmode hk))
  exact
    { ivLength := hr.iv
      oldCipherLength := hr.oldCipher
      tmpLength := hr.tmp
      countLe := hr.countLe
      emptySlot := fun he => by simp [hdv] at he
      hasMode := fun _ => hdm ▸ h.hasMode hv
      hasKey := fun _ => hst ▸ h.hasKey hv
      counterIffCtr := fun _ => hdm ▸ hcsrc ▸ h.counterIffCtr hv
      segmentOk := fun _ hk => hseg ▸ h.segmentOk hv (hmode hk)
      pgpCount := fun _ hk => ⟨(h.pgpCount hv (hmode hk)).1, hr.started (.inl (hsame hk))⟩
      ctrCount := fun _ hk => hr.started (.inr (hsame hk)) }

theorem cipherInit_ne_zero {c : CipherName} {key : Bytes} {st : CipherState} (h : cipherInit c key = some st) :
    st ≠ .zero := by
  rintro rfl
  cases c <;> simp [cipherInit] at h

theorem initialCount_le {m : Mode} {bs : Nat} (hpgp : m = .pgp → 8 ≤ bs) : initialCount (some m) bs ≤ bs := by
  cases m with
  | pgp => exact hpgp rfl
  | ctr => exact Nat.le_refl bs
  | _ => exact Nat.zero_le bs

/-- The checks of `CTX_NEW` give the invariant of the context it builds (rules R111 to R118). -/
theorem contextInv_newContext {mode : Byte} {csrc : CounterSource} {key iv : Bytes} {seg : Word} {s : State}
    {st : CipherState} (hs : SlotsInv s) (hc : ctxNewCause mode csrc key iv seg s = none)
    (hi : cipherInit s.params.cipher key = some st) : ContextInv s.bs (newContext mode csrc st iv seg s) := by
  obtain ⟨_, _, hiv, m, hm, hpgp, hcfb, hctr, _⟩ := ctxNewCause_none _ _ _ _ _ _ hc
  have hmode {k : Mode} (hk : modeOfNumber mode = some k) : m = k := Option.some.inj (hm.symm.trans hk)
  exact
    { ivLength := by
        simp only [newContext]
        split_ifs with h0
        · exact zeros_length _
        · exact hiv.resolve_left h0
      oldCipherLength := zeros_length _
      tmpLength := hs.ctx.tmpLength
      countLe := by simpa only [newContext, hm] using initialCount_le hpgp
      emptySlot := fun h => nomatch h
      hasMode := fun _ => by simp [newContext, hm]
      hasKey := fun _ => cipherInit_ne_zero hi
      counterIffCtr := fun _ => by simpa only [newContext, hm, Option.some.injEq] using hctr
      segmentOk := fun _ hk => hcfb (hmode hk)
      pgpCount := fun _ hk => ⟨hpgp (hmode hk), by
        simp only [newContext, show modeOfNumber mode = some .pgp from hk, initialCount, pgpCountInit]
        decide⟩
      ctrCount := fun _ hk => by
        simpa only [newContext, show modeOfNumber mode = some .ctr from hk, initialCount] using
          hs.blockSizePos }

theorem pgpFullValue_bounds {s : State} (h8 : 8 ≤ s.bs) : 1 ≤ pgpFullValue s ∧ pgpFullValue s ≤ s.bs := by
  unfold pgpFullValue
  split <;> omega

/-- `SYNC` joins two parts of `BS - count` and `count` bytes (rule R181). -/
theorem registers_syncContext {bs full : Nat} {c : Context} (h : Registers .pgp bs c) (hpos : 1 ≤ full)
    (hle : full ≤ bs) : Registers .pgp bs (syncContext full bs c) := by
  unfold syncContext
  split_ifs
  · exact h
  · have hiv : (slice c.oldCipher c.count bs ++ c.iv.take c.count).length = bs := by
      have := h.countLe
      rw [List.length_append, slice_length, List.length_take, h.oldCipher, h.iv]
      omega
    exact { h with iv := hiv, countLe := hle, started := fun _ => hpos }

theorem identity_syncContext (full bs : Nat) (c : Context) : identity (syncContext full bs c) = identity c := by
  unfold syncContext
  split_ifs <;> rfl

theorem contextInv_withPrfMode {bs : Nat} {c : Context} (h : ContextInv bs c) (hv : c.valid = true) (v : Bool) :
    ContextInv bs (c.withPrfMode v) :=
  { h with emptySlot := fun he => by simp [hv] at he }

/-! ## Commands that answer at once -/

theorem slotsInv_writes {s u : State} {i : Instr} (hs : SlotsInv s) (h : Writes s i u) : SlotsInv u := by
  have hbs := hs.blockSizePos
  cases h with
  | nothing => exact hs
  | initRequest => exact ⟨hbs, hs.ctx, hs.gen⟩
  | newContext hc hi =>
    have hctx := contextInv_newContext hs hc hi
    exact ⟨hbs, hctx, hs.gen⟩
  | clearContext => exact ⟨hbs, contextInv_cleared s.bs, hs.gen⟩
  | prfMode hv v => exact ⟨hbs, contextInv_withPrfMode hs.ctx hv v, hs.gen⟩
  | realign hv hm =>
    obtain ⟨hpos, hle⟩ := pgpFullValue_bounds (hs.ctx.pgpCount hv hm).1
    have hr := registers_syncContext (registers_of_contextInv hs.ctx hv hm) hpos hle
    exact ⟨hbs, contextInv_of_registers hs.ctx hv hm (identity_syncContext _ _ _) hr, hs.gen⟩
  | newGenerator _ _ hc e aw ds => exact ⟨hbs, hs.ctx, generatorInv_newGenerator hc e aw ds⟩
  | invoke hv => exact ⟨hbs, hs.ctx, generatorInv_genIncrement hs.gen hv⟩
  | clearGenerator => exact ⟨hbs, hs.ctx, generatorInv_cleared⟩

/-- Every response leaves the sequencing state of an idle block. -/
theorem inv_answered {s : State} (h : SlotsInv s) (status : Word) (result : Bytes) :
    (answered s status result).Inv where
  slots := ⟨h.blockSizePos, h.ctx, h.gen⟩
  settled := .inl rfl
  idleClean _ := ⟨rfl, rfl, rfl⟩
  waiting hst := nomatch hst

/-! ## The loop over units -/

/-- A data phase in mode `m` of a block of `n` bytes stands at `u`, between two units. -/
structure Running (m : Mode) (n : Nat) (u : State) : Prop where
  slots : SlotsInv u
  valid : u.ctx.valid = true
  mode : u.ctx.mode = some m
  bs : u.bs = n

section Units
variable {m : Mode} {n : Nat} {u v : State}

theorem Running.registers (h : Running m n u) : Registers m n u.ctx :=
  h.bs ▸ registers_of_contextInv h.slots.ctx h.valid h.mode

/-- What keeps the rest of the state and leaves good registers goes on running. -/
theorem Running.of_keeps (h : Running m n u) (hk : Keeps u v) (hr : Registers m n v.ctx) : Running m n v := by
  obtain ⟨hvalid, hmode, _⟩ := identity_eq_iff.mp hk.identity
  have hbs : v.bs = n := hk.bs.trans h.bs
  have hpos : 1 ≤ n := h.bs ▸ h.slots.blockSizePos
  have hctx : ContextInv n v.ctx :=
    contextInv_of_registers (h.bs ▸ h.slots.ctx) h.valid h.mode hk.identity hr
  exact ⟨⟨hbs ▸ hpos, hbs ▸ hctx, generatorInv_drawn h.slots.gen hk.gen⟩, hvalid.trans h.valid,
    hmode.trans h.mode, hbs⟩

theorem encBlock_length (u : State) {x : Bytes} (hx : x.length = n) : (encBlock u x).length = n :=
  (cipherEnc_length u.ctx.st x).trans hx

theorem Running.finishUnits {α : Type} {unit : State → α → State × Bytes} (h : Running m n u)
    (hk : UnitKeeps unit) (us : List α)
    (hr : ∀ v, ∀ x ∈ us, Running m n v → Registers m n (unit v x).1.ctx) :
    (finishRun (runUnits unit us u)).Inv := by
  have hend : Running m n (runUnits unit us u) := by
    refine runUnits_keeps (Running m n) unit us (fun v x hx hv => ?_) u h
    have hw : Keeps (unit v x).1 (writeOut (unit v x).2 (unit v x).1) := keeps_of_gen_eq rfl rfl rfl rfl rfl
    exact hv.of_keeps ((hk v x).1.trans hw) (hr v x hx hv)
  exact inv_answered hend.slots _ _

theorem cbcEncBlock_registers (h : Running .cbc n u) {p : Bytes} (hp : p.length = n) :
    Registers .cbc n (cbcEncBlock u p).1.ctx := by
  have hx : (xorBytes p u.ctx.iv).length = n := by rw [xorBytes_length, hp, h.registers.iv, Nat.min_self]
  exact { h.registers with iv := encBlock_length u hx, tmp := hx }

theorem cbcDecBlock_registers (h : Running .cbc n u) {c : Bytes} (hc : c.length = n) :
    Registers .cbc n (cbcDecBlock u c).1.ctx :=
  { h.registers with iv := hc, oldCipher := hc, tmp := (cipherDec_length u.ctx.st c).trans hc }

/-- Feeding back a segment of at most a block keeps the length of `iv`, in both directions of CFB (rule R163). -/
theorem cfbFeed_registers (h : Running .cfb n u) {cseg : Bytes} (hc : cseg.length ≤ n) :
    Registers .cfb n ((u.ctx.withTmp (encBlock u u.ctx.iv)).withIv (cfbFeed u.bs u.ctx.iv cseg)) := by
  have hfeed : (cfbFeed u.bs u.ctx.iv cseg).length = n := by
    rw [h.bs]; exact cfbFeed_length n _ _ h.registers.iv hc
  exact { h.registers with iv := hfeed, tmp := encBlock_length u h.registers.iv }

theorem cfbEncSegment_registers (h : Running .cfb n u) {p : Bytes} (hp : p.length ≤ n) :
    Registers .cfb n (cfbEncSegment u p).1.ctx :=
  cfbFeed_registers h (by rw [xorBytes_length]; omega)

theorem ofbBlock_registers (h : Running .ofb n u) (x : Bytes) : Registers .ofb n (ofbBlock u x).1.ctx :=
  have hk := encBlock_length u h.registers.iv
  { h.registers with iv := hk, tmp := hk }

/-- The refill of PGP leaves `count` below `BS`, for the byte it is made for (rule R176). -/
theorem pgpReady_registers (h : Running .pgp n u) :
    (pgpReady u).ctx.iv.length = n ∧ (pgpReady u).ctx.oldCipher.length = n ∧ (pgpReady u).ctx.tmp.length = n ∧
      (pgpReady u).ctx.count < n := by
  have hr := h.registers
  have hpos := h.slots.blockSizePos
  unfold pgpReady
  split_ifs with hfull
  · exact ⟨encBlock_length u hr.iv, hr.iv, hr.tmp, h.bs ▸ hpos⟩
  · exact ⟨hr.iv, hr.oldCipher, hr.tmp, lt_of_le_of_ne hr.countLe (h.bs ▸ hfull)⟩

theorem pgpEncByte_registers (h : Running .pgp n u) (b : Byte) : Registers .pgp n (pgpEncByte u b).1.ctx := by
  obtain ⟨hiv, hold, htmp, hlt⟩ := pgpReady_registers h
  exact ⟨List.length_set.trans hiv, hold, htmp, hlt, fun _ => Nat.le_add_left 1 _⟩

theorem pgpDecByte_registers (h : Running .pgp n u) (b : Byte) : Registers .pgp n (pgpDecByte u b).1.ctx := by
  obtain ⟨hiv, hold, htmp, hlt⟩ := pgpReady_registers h
  exact ⟨List.length_set.trans hiv, hold, htmp, hlt, fun _ => Nat.le_add_left 1 _⟩

/-- A segment of a valid CFB context is at most a block. -/
theorem Running.segment_le (h : Running .cfb n u) : segmentBytes u.ctx.segmentSize ≤ n := by
  rw [← h.bs]
  exact (RoundTrip.segmentBytes_bounds (h.slots.ctx.segmentOk h.valid h.mode)).2

end Units

/-! ## The byte loop of CTR -/

/-- The byte loop of CTR stands at `u` with `rest` still to come: `pos` bytes of `IN` are processed and written to
`OUT`. -/
structure CtrLoop (n : Nat) (rest : Bytes) (u : State) : Prop extends Running .ctr n u where
  todo : rest = u.inBuf.drop u.pos
  written : u.outBuf.length = u.pos

section Ctr
variable {n : Nat} {b : Byte} {rest : Bytes} {u v : State}

/-- One byte with keystream at hand, the refill that fetched it having kept `pos` and the buffers. -/
theorem CtrLoop.byte (h : CtrLoop n (b :: rest) u) (hk : Keeps u v) (hiv : v.ctx.iv.length = n)
    (hold : v.ctx.oldCipher = u.ctx.oldCipher) (htmp : v.ctx.tmp = u.ctx.tmp) (hlt : v.ctx.count < n)
    (hpos : v.pos = u.pos) (hin : v.inBuf = u.inBuf) (hout : v.outBuf = u.outBuf) :
    CtrLoop n rest (ctrByte b v) := by
  have hr := h.registers
  have hregs : Registers .ctr n (ctrByte b v).ctx :=
    ⟨hiv, (congrArg List.length hold).trans hr.oldCipher, (congrArg List.length htmp).trans hr.tmp, hlt,
      fun _ => Nat.le_add_left 1 _⟩
  have htail : rest = v.inBuf.drop (v.pos + 1) := by
    rw [hpos, hin, ← List.drop_drop, ← h.todo]; rfl
  have hlen : (v.outBuf ++ [b ^^^ byteAt v.ctx.iv v.ctx.count]).length = v.pos + 1 := by
    rw [List.length_append, hout, h.written, hpos]; rfl
  exact ⟨h.toRunning.of_keeps (hk.trans (ctrByte_keeps b v)) hregs, htail, hlen⟩

/-- The byte for which the register was filled. -/
theorem CtrLoop.byte_filled (h : CtrLoop n (b :: rest) u) (hf : FilledFrom u v) (hk : Keeps u v) :
    CtrLoop n rest (ctrByte b (v.withCtx (v.ctx.withCount 0))) := by
  obtain ⟨⟨x, hx, hctx⟩, _, _, _, hpos, hin, hout, _, _⟩ := hf
  have hiv : v.ctx.iv.length = n := by
    rw [hctx]; exact (cipherEnc_length _ x).trans (hx.trans h.bs)
  have hold : v.ctx.oldCipher = u.ctx.oldCipher := by rw [hctx]; rfl
  have htmp : v.ctx.tmp = u.ctx.tmp := by rw [hctx]; rfl
  have hn : 0 < n := h.bs ▸ h.slots.blockSizePos
  exact h.byte (hk.trans (startBlock_keeps (.filled v))) hiv hold htmp hn hpos hin hout

theorem CtrLoop.next (b : Byte) (rest : Bytes) (u v : State) (h : CtrLoop n (b :: rest) u)
    (hr : ctrReady u = .filled v) : CtrLoop n rest (ctrByte b v) := by
  have hk := ctrReady_filled_keeps hr
  rcases ctrReady_cases u h.slots.gen.bufLength with
    ⟨hne, he⟩ | ⟨hfull, w, hf, he⟩ | ⟨_, _, _, _, _, _, he⟩ | ⟨_, _, _, he⟩ <;> rw [he] at hr <;> cases hr
  · have hlt : u.ctx.count < n := lt_of_le_of_ne h.registers.countLe (h.bs ▸ hne)
    exact h.byte hk h.registers.iv rfl rfl hlt rfl rfl rfl
  · exact h.byte_filled hf { hk with }

/-- A refill that raises ends the command in good slots (rule R196). -/
theorem CtrLoop.raised {cls cause : Byte} (h : CtrLoop n (b :: rest) u) (hr : ctrReady u = .raised cls cause v) :
    SlotsInv v := by
  have hk := ctrReady_raised_keeps hr
  rcases ctrReady_cases u h.slots.gen.bufLength with
    ⟨_, he⟩ | ⟨_, _, _, he⟩ | ⟨_, _, _, _, _, hf, he⟩ | ⟨_, _, _, he⟩ <;> rw [he] at hr <;> cases hr
  have hregs : Registers .ctr n v.ctx := hf.1 ▸ h.registers
  exact (h.toRunning.of_keeps hk hregs).slots

/-- A refill that waits leaves the command in flight at a byte that needs it (rules R34, R195). -/
theorem CtrLoop.waits (h : CtrLoop n (b :: rest) u) (hr : ctrReady u = .waiting v) : v.Inv := by
  rcases ctrReady_cases u h.slots.gen.bufLength with
    ⟨_, he⟩ | ⟨_, _, _, he⟩ | ⟨_, _, _, _, _, _, he⟩ | ⟨hfull, _, hf, he⟩ <;> rw [he] at hr <;> cases hr
  obtain ⟨hext, _, rfl⟩ := hf
  have hlt : u.pos < u.inBuf.length := by
    by_contra hge
    have hnil := h.todo
    rw [List.drop_of_length_le (by omega)] at hnil
    cases hnil
  exact
    { slots := ⟨h.slots.blockSizePos, h.slots.ctx, h.slots.gen⟩
      settled := .inr rfl
      idleClean := fun hst => nomatch hst
      waiting := fun _ => ⟨h.valid, h.mode, hext, hfull, hlt, h.written⟩ }

theorem CtrLoop.ctrRun_inv (h : CtrLoop n rest u) : (ctrRun rest u).Inv := by
  rcases ctrRun_cases (CtrLoop n) CtrLoop.next rest u h with
    ⟨w, hw, hend⟩ | ⟨_, _, _, _, _, _, hw, hr, hend⟩ | ⟨_, _, _, _, hw, hr, hend⟩ <;> rw [hend]
  · exact inv_answered hw.slots _ _
  · exact inv_answered (hw.raised hr) _ _
  · exact hw.waits hr

/-- The answer a waiting command takes is good: its byte is processed and the loop goes on. -/
theorem CtrLoop.resume_inv (h : CtrLoop n (b :: rest) u) {x : Bytes} (hx : x.length = u.bs) :
    (ctrRun (b :: rest) ((fillFrom x u).withCtx ((fillFrom x u).ctx.withCount 0))).Inv := by
  have hready : ctrReady ((fillFrom x u).withCtx ((fillFrom x u).ctx.withCount 0)) =
      .filled ((fillFrom x u).withCtx ((fillFrom x u).ctx.withCount 0)) :=
    if_neg (Nat.ne_of_lt h.slots.blockSizePos)
  have hfilled : FilledFrom u (fillFrom x u) :=
    ⟨⟨x, hx, rfl⟩, .inl rfl, rfl, rfl, rfl, rfl, rfl, rfl, rfl⟩
  rw [ctrRun_filled b rest _ _ hready]
  exact (h.byte_filled hfilled (fillFrom_keeps x u)).ctrRun_inv

/-- A command in flight is in the byte loop, at the byte that waits. -/
theorem ctrLoop_of_waiting {s : State} (hs : SlotsInv s) (hw : WaitingInv s) :
    ∃ b rest, s.inBuf.drop s.pos = b :: rest ∧ CtrLoop s.bs (b :: rest) s := by
  obtain ⟨b, rest, hrest⟩ := List.exists_cons_of_ne_nil (mt List.drop_eq_nil_iff.mp (not_le.mpr hw.posLt))
  exact ⟨b, rest, hrest, ⟨hs, hw.valid, hw.ctr, rfl⟩, hrest.symm, hw.written⟩

/-- The command in flight goes on with an answer, which ends it or fills the register for its byte. -/
theorem resumeRefill_inv {s : State} (hs : s.Inv) (hst : s.stage = .refillWait) : (resumeRefill s).Inv := by
  unfold resumeRefill
  split
  · exact hs
  · next r rest _ =>
    have htaken : SlotsInv ((s.withReplies rest).withStage .run) :=
      ⟨hs.slots.blockSizePos, hs.slots.ctx, hs.slots.gen⟩
    rcases acceptReply_cases r ((s.withReplies rest).withStage .run) with
      ⟨_, he⟩ | ⟨_, _, he⟩ | ⟨_, _, hlen, he⟩ <;> rw [he]
    · exact inv_answered htaken _ _
    · exact inv_answered htaken _ _
    · obtain ⟨b, left, hleft, hloop⟩ := ctrLoop_of_waiting hs.slots (hs.waiting hst)
      have hloop' : CtrLoop s.bs (b :: left) ((s.withReplies rest).withStage .run) :=
        ⟨⟨htaken, hloop.valid, hloop.mode, rfl⟩, hloop.todo, hloop.written⟩
      rw [hleft]
      exact hloop'.resume_inv hlen

end Ctr

/-! ## Every mode -/

/-- A data phase from good slots, begun with nothing processed, ends or waits in a state of the invariant. -/
theorem Running.variant_inv {variant : Mode → State → State} {m : Mode} {n : Nat} {u : State}
    (h : Running m n u) (hvar : variant = encryptVariant ∨ variant = decryptVariant) (hpos : u.pos = 0)
    (hout : u.outBuf = []) : (variant m u).Inv := by
  have hblock : ∀ x ∈ units u.bs u.inBuf, x.length = n := h.bs ▸ units_mem_length u.bs u.inBuf
  have hctr : m = .ctr → (ctrRun u.inBuf u).Inv := by
    rintro rfl
    exact CtrLoop.ctrRun_inv ⟨h, by rw [hpos]; rfl, by rw [hout, hpos]; rfl⟩
  have hseg : m = .cfb → ∀ x ∈ units (segmentBytes u.ctx.segmentSize) u.inBuf, x.length ≤ n := by
    rintro rfl x hx
    rw [units_mem_length _ _ x hx]
    exact h.segment_le
  rcases hvar with rfl | rfl
  · cases m with
    | ecb => exact h.finishUnits ecbEncBlock_keeps _ fun _ _ _ hv => hv.registers
    | cbc => exact h.finishUnits cbcEncBlock_keeps _ fun _ x hx hv => cbcEncBlock_registers hv (hblock x hx)
    | cfb => exact h.finishUnits cfbEncSegment_keeps _ fun _ x hx hv => cfbEncSegment_registers hv (hseg rfl x hx)
    | pgp => exact h.finishUnits pgpEncByte_keeps _ fun _ x _ hv => pgpEncByte_registers hv x
    | ofb => exact h.finishUnits ofbBlock_keeps _ fun _ x _ hv => ofbBlock_registers hv x
    | ctr => exact hctr rfl
  · cases m with
    | ecb => exact h.finishUnits ecbDecBlock_keeps _ fun _ _ _ hv => hv.registers
    | cbc => exact h.finishUnits cbcDecBlock_keeps _ fun _ x hx hv => cbcDecBlock_registers hv (hblock x hx)
    | cfb => exact h.finishUnits cfbDecSegment_keeps _ fun _ x hx hv => cfbFeed_registers hv (hseg rfl x hx)
    | pgp => exact h.finishUnits pgpDecByte_keeps _ fun _ x _ hv => pgpDecByte_registers hv x
    | ofb => exact h.finishUnits ofbBlock_keeps _ fun _ x _ hv => ofbBlock_registers hv x
    | ctr => exact hctr rfl

theorem DataRun.inv {s t : State} (h : DataRun s t) (hs : SlotsInv s) : t.Inv := by
  obtain ⟨hv, _, m, buf, hvar, hm, rfl⟩ := h
  have hslots : SlotsInv (allocate buf s) := ⟨hs.blockSizePos, hs.ctx, hs.gen⟩
  exact Running.variant_inv ⟨hslots, hv, hm, rfl⟩ hvar rfl rfl

/-! ## The step, and reset -/

theorem exec_inv {i : Instr} {s t : State} (hs : SlotsInv s) (h : exec i s = .next t) : t.Inv := by
  rcases exec_cases h with ⟨u, status, result, hw, rfl⟩ | ⟨_, hrun⟩
  · exact inv_answered (slotsInv_writes hs hw) status result
  · exact hrun.inv hs

/-- Settles O7: a command from an idle block is an answer over good slots or a data phase, and a command in flight
goes on in the byte loop of CTR. -/
theorem everyStepKeepsTheInvariant : Obligations.EveryStepKeepsTheInvariant := by
  intro s t hs h
  rcases step_cases s t h with ⟨_, _, rfl⟩ | ⟨_, tr, rest, _, hrun⟩ | ⟨hst, rfl⟩
  · exact hs
  · have hslots : SlotsInv (accept rest s) := ⟨hs.slots.blockSizePos, hs.slots.ctx, hs.slots.gen⟩
    rcases runTransaction_cases tr (accept rest s) with ⟨_, _, he⟩ | ⟨i, _, he⟩ <;> rw [he] at hrun
    · cases hrun
      exact inv_answered hslots _ _
    · exact exec_inv hslots hrun
  · exact resumeRefill_inv hs hst

/-- Settles O8: both slots are cleared and nothing is in flight. -/
theorem resetMeetsTheInvariant : Obligations.ResetMeetsTheInvariant where
  slots := ⟨Config.blockSize.pos, contextInv_cleared _, generatorInv_cleared⟩
  settled := .inl rfl
  idleClean _ := ⟨rfl, rfl, rfl⟩
  waiting hst := nomatch hst

/-- Settles O11: `State.reset` holds the cleared slots, field by field. -/
theorem resetLeavesTheValuesOfTheSpec : Obligations.ResetLeavesTheValuesOfTheSpec := by
  have hctx : State.reset.ctx = Context.cleared State.reset.bs := rfl
  have hgen : State.reset.gen = Generator.cleared := rfl
  have hstage : State.reset.stage = .idle := rfl
  have hpos : State.reset.pos = 0 := rfl
  unfold Obligations.ResetLeavesTheValuesOfTheSpec
  simp [hctx, hgen, hstage, hpos, zeros, State.requestOutstanding]

end Sys2Proof.Slots
end

section
/-! PROOFS of O1, O6: the encoder undone, in both forms. `checkHeader_encodeHeader` and `decodeOperands_encode` say
that the decoder of the command port finds the row of a command and then the command (`decode_encode`); the serial
form needs besides that the operands are read back from their bytes (`readOperands_flatMap`). -/

open Sys2Proof Sys2Proof.Machine Sys2Proof.Spec

namespace Sys2Proof.Encoding

/-! ## The header -/

/-- The encoded header of every command is one its row of rule R89 selects. -/
theorem encodeHeader_selected (i : Instr) : opcodeSelects (opcodeOf i) (encodeHeader i) = true := by
  cases i with
  | ctxNew mode csrc key iv seg => exact Laws.HeaderSelected.ctxNew mode csrc key iv seg
  | encrypt buf => exact Laws.HeaderSelected.encrypt buf
  | decrypt buf => exact Laws.HeaderSelected.decrypt buf
  | sync => exact Laws.HeaderSelected.sync
  | setPrf v => exact Laws.HeaderSelected.setPrf v
  | getIv => exact Laws.HeaderSelected.getIv
  | getMode => exact Laws.HeaderSelected.getMode
  | getBlockSize => exact Laws.HeaderSelected.getBlockSize
  | getKeySize => exact Laws.HeaderSelected.getKeySize
  | ctxDestroy => exact Laws.HeaderSelected.ctxDestroy
  | genNewBe aw ds pfx sfx initial => exact Laws.HeaderSelected.genNewBe aw ds pfx sfx initial
  | genNewLe aw ds pfx sfx initial => exact Laws.HeaderSelected.genNewLe aw ds pfx sfx initial
  | genInvoke => exact Laws.HeaderSelected.genInvoke
  | genNextValue => exact Laws.HeaderSelected.genNextValue
  | genGetCarry => exact Laws.HeaderSelected.genGetCarry
  | genDestroy => exact Laws.HeaderSelected.genDestroy

@[simp] theorem opcodeOfNumber_opcodeNumber (op : Opcode) : opcodeOfNumber (opcodeNumber op) = some op := by
  cases op <;> rfl

@[simp] theorem csrcOfNumber_csrcNumber (c : CounterSource) : csrcOfNumber (csrcNumber c) = some c := by
  cases c <;> rfl

/-- The `CSRC` of an encoded header names a counter source; it is never the reserved number (rule R93). -/
theorem encodeCsrc_eq_csrcNumber (i : Instr) : ∃ c, encodeCsrc i = csrcNumber c := by
  cases i with
  | ctxNew mode csrc key iv seg => exact ⟨csrc, rfl⟩
  | _ => exact ⟨.none, rfl⟩

/-- Steps (1) to (3) of rule R91 find the row of an encoded command. -/
theorem checkHeader_encodeHeader (i : Instr) : checkHeader (encodeHeader i) = .ok (opcodeOf i) := by
  have hrow : opcodeOfNumber (headerOpc (encodeHeader i)) = some (opcodeOf i) := by simp [encodeHeader]
  obtain ⟨c, hc⟩ := encodeCsrc_eq_csrcNumber i
  have hcsrc : headerCsrc (encodeHeader i) = csrcNumber c := (headerCsrc_makeHeader ..).trans hc
  simp [checkHeader, hrow, encodeHeader_selected, hcsrc]

theorem headerBit0_eq (h : Word) : headerBit0 h = (headerArg h)[0] := by simp [headerBit0, headerArg]

theorem headerBit1_eq (h : Word) : headerBit1 h = (headerArg h)[1] := by simp [headerBit1, headerArg]

/-- `AW` and `DS` stand in bits 0 and 1 of `ARG` (rule R86). -/
theorem genArg_bits (aw ds : Bool) : (genArg aw ds)[0] = aw ∧ (genArg aw ds)[1] = ds := by
  cases aw <;> cases ds <;> decide

/-- `V` stands in bit 0 of `ARG` (rule R86). -/
theorem setPrfArg_bit (v : Bool) : (encodeArg (.setPrf v))[0] = v := by
  cases v <;> decide

/-! ## The command port -/

/-- Step (4) of rule R91 makes a command again of its header fields and operands. -/
theorem decodeOperands_encode (i : Instr) :
    decodeOperands (opcodeOf i) (encodeHeader i) (encodeOperands i) = .ok i := by
  cases i with
  | ctxNew mode csrc key iv seg =>
    simp [decodeOperands, opcodeOf, ctxNewOperands, encodeHeader, encodeCsrc, encodeArg, encodeOperands]
  | setPrf v =>
    simp [decodeOperands, opcodeOf, noOperands, encodeHeader, encodeOperands, headerBit0_eq, setPrfArg_bit]
  | genNewBe aw ds pfx sfx initial =>
    simp [decodeOperands, opcodeOf, genOperands, encodeHeader, encodeArg, encodeOperands, headerBit0_eq,
      headerBit1_eq, genArg_bits]
  | genNewLe aw ds pfx sfx initial =>
    simp [decodeOperands, opcodeOf, genOperands, encodeHeader, encodeArg, encodeOperands, headerBit0_eq,
      headerBit1_eq, genArg_bits]
  | _ => rfl

/-- The transaction of every command decodes to the command (rule R91). -/
@[simp] theorem decode_encode (i : Instr) : decode (encode i) = .ok i := by
  simp [decode, encode, checkHeader_encodeHeader, decodeOperands_encode]

/-! ## The serial form -/

/-- The encoded operands of every command have the kinds its row lists (rule R88). -/
theorem encodeOperands_kinds (i : Instr) : (encodeOperands i).map operandKindOf = operandKinds (opcodeOf i) := by
  cases i <;> rfl

/-- Well-formed operands are read back one after the other, with whatever follows them (rule R87). -/
theorem readOperands_flatMap (ops : List Operand) (rest : Bytes) (h : ∀ o ∈ ops, o.wellFormed = true) :
    readOperands (ops.map operandKindOf) (ops.flatMap operandBytes ++ rest) = some (ops, rest) := by
  induction ops with
  | nil => rfl
  | cons o os ih =>
    have hread := readOperand_operandBytes o (os.flatMap operandBytes ++ rest) (h o List.mem_cons_self)
    have hrest := ih fun x hx => h x (List.mem_cons_of_mem _ hx)
    simp [readOperands, hread, hrest]

/-- A well-formed command is read back from the front of a byte stream, which its own bytes delimit (rule R87). -/
theorem decodeStream_encodeBytes (i : Instr) (rest : Bytes) (h : i.wellFormed = true) :
    decodeStream (encodeBytes i ++ rest) = .ok (i, rest) := by
  have hops : readOperands (operandKinds (opcodeOf i)) ((encodeOperands i).flatMap operandBytes ++ rest)
      = some (encodeOperands i, rest) := by
    rw [← encodeOperands_kinds]
    exact readOperands_flatMap _ rest (encodeOperands_wellFormed i h)
  simp [decodeStream, encodeBytes, transactionBytes, encode, checkHeader_encodeHeader, hops,
    decodeOperands_encode]

/-- Settles O1: a command is read back from its serial form with nothing left over. -/
theorem decodeBytesInvertsEncodeBytes : Obligations.DecodeBytesInvertsEncodeBytes := by
  intro i h
  have hstream := decodeStream_encodeBytes i [] h
  rw [List.append_nil] at hstream
  simp [decodeBytes, hstream]

/-! ## The step -/

/-- An idle block takes the head of the command port whole and runs it (rules R76, R138). -/
theorem step_idle {s : State} {t : Transaction} {rest : List Transaction} (hst : s.stage = .idle)
    (hport : s.cmdPort = t :: rest) : step s = runTransaction t (accept rest s) := by
  simp [step, hst, hport]

/-- A transaction that decodes runs its command (rule R91). -/
theorem runTransaction_of_decode {t : Transaction} {i : Instr} (h : decode t = .ok i) (s : State) :
    runTransaction t s = exec i s := by
  simp [runTransaction, h]

/-- Settles O6: the second part is the first for a transaction that `decode_encode` decodes. -/
theorem stepRunsTheDecodedCommand : Obligations.StepRunsTheDecodedCommand := by
  have hruns : ∀ (s : State) (t : Transaction) (rest : List Transaction) (i : Instr), s.stage = .idle →
      s.cmdPort = t :: rest → decode t = .ok i → step s = exec i { s with cmdPort := rest, stage := .check } :=
    fun s t rest i hst hport hdec => (step_idle hst hport).trans (runTransaction_of_decode hdec (accept rest s))
  exact ⟨hruns, fun s rest i hst hport => hruns s (encode i) rest i hst hport (decode_encode i)⟩

end Sys2Proof.Encoding
end

section
/-! PROOF of O17, and the front end of `ENCRYPT` and `DECRYPT` for the proofs after it: both commands are
`dataPhase` with the variant of their direction (`exec_crypt`), and the length check of every mode is said by
`lengthCause_of_blockMode`, `lengthCause_of_cfb` and `lengthCause_eq_none`. -/

open Sys2Proof Sys2Proof.Machine Sys2Proof.Spec

namespace Sys2Proof.FrontEnd

/-! ## Both directions as one command -/

/-- The column of rule R136 that `crypt dec` dispatches on. -/
def cryptVariant (dec : Bool) : Mode → State → State := if dec = true then decryptVariant else encryptVariant

/-- `ENCRYPT` or `DECRYPT` past its slot and prf checks (rules R130 to R132). -/
theorem exec_crypt {dec : Bool} {s : State} (hv : s.ctx.valid = true) (hp : dec = true → s.ctx.prfMode = false)
    (buf : Bytes) : exec (crypt dec buf) s = dataPhase (cryptVariant dec) buf s := by
  cases dec with
  | false => exact RoundTrip.exec_encrypt_valid hv buf
  | true => exact RoundTrip.exec_decrypt_valid hv (hp rfl) buf

/-! ## The length check -/

/-- The modes whose unit is a block of `BS` bytes and whose length is checked against it (rule R133). -/
def BlockMode (c : Context) : Prop := c.mode = some .ecb ∨ c.mode = some .cbc ∨ c.mode = some .ofb

theorem lengthCause_of_blockMode {c : Context} (h : BlockMode c) (bs len : Nat) :
    lengthCause c bs len = if len % bs ≠ 0 then some .lenNotBlockMultiple else none := by
  rcases h with h | h | h <;> simp [lengthCause, h]

theorem lengthCause_of_cfb {c : Context} (h : c.mode = some .cfb) (bs len : Nat) :
    lengthCause c bs len =
      if len % segmentBytes c.segmentSize ≠ 0 then some .lenNotSegmentMultiple else none := by
  simp [lengthCause, h]

/-- The check passes a length that is whole in the unit of the mode; PGP and CTR have none (rule R133). -/
theorem lengthCause_eq_none {c : Context} {bs len : Nat} (hblock : BlockMode c → len % bs = 0)
    (hcfb : c.mode = some .cfb → len % segmentBytes c.segmentSize = 0) : lengthCause c bs len = none := by
  have block (h : BlockMode c) : lengthCause c bs len = none := by simp [lengthCause_of_blockMode h, hblock h]
  cases hm : c.mode with
  | none => simp [lengthCause, hm]
  | some m =>
    cases m with
    | ecb => exact block (.inl hm)
    | cbc => exact block (.inr (.inl hm))
    | ofb => exact block (.inr (.inr hm))
    | cfb => simp [lengthCause_of_cfb hm, hcfb hm]
    | pgp | ctr => simp [lengthCause, hm]

/-! ## The refusals of the data phase -/

section Refusals
variable {variant : Mode → State → State} {buf : Bytes} {s : State}

theorem dataPhase_of_lengthCause {c : Cause} (hb : buf ≠ []) (hl : lengthCause s.ctx s.bs buf.length = some c) :
    dataPhase variant buf s = .next (raise c s) := by
  simp [dataPhase, hb, hl]

theorem dataPhase_of_allocFails (hb : buf ≠ []) (hl : lengthCause s.ctx s.bs buf.length = none)
    (ha : allocFails s.params.bufCap buf.length = true) :
    dataPhase variant buf s = .next (raise .allocFailed s) := by
  simp [dataPhase, hb, hl, ha]

end Refusals

/-- Settles O17: each refusal is a branch of `dataPhase`, answered with the status word of its cause. -/
theorem lengthThenAllocationIsChecked : Obligations.LengthThenAllocationIsChecked := by
  intro dec buf s hv hp hb
  rw [exec_crypt hv hp]
  refine ⟨fun hblock hlen => ?_, fun hcfb hlen => ?_, fun cap hcap hlt hblock hcfb => ?_⟩
  · have hcause : lengthCause s.ctx s.bs buf.length = some .lenNotBlockMultiple :=
      (lengthCause_of_blockMode hblock ..).trans (if_pos hlen)
    exact dataPhase_of_lengthCause hb hcause
  · have hcause : lengthCause s.ctx s.bs buf.length = some .lenNotSegmentMultiple :=
      (lengthCause_of_cfb hcfb ..).trans (if_pos hlen)
    exact dataPhase_of_lengthCause hb hcause
  · have hfails : allocFails s.params.bufCap buf.length = true := by simp [allocFails, hcap, hlt]
    exact dataPhase_of_allocFails hb (lengthCause_eq_none hblock hcfb) hfails

end Sys2Proof.FrontEnd
end

section
/-! PROOF of O40. The byte loop of CTR with further answers behind those it has takes the same answers up to the
byte at which it waited without them (`ctrReady_moreReplies`); there it takes the first further answer as the
waiting command does when it goes on (`ctrRun_resumes`). -/

open Sys2Proof Sys2Proof.Machine Sys2Proof.Spec

namespace Sys2Proof.Waiting

/-- The same state with the answers `rs` to come after those it has. -/
def moreReplies (rs : List CounterReply) (s : State) : State := s.withReplies (s.replies ++ rs)

/-- The refill takes the first of the answers there (rule R195). -/
theorem externalRefill_of_cons {s : State} {r : CounterReply} {rest : List CounterReply}
    (h : s.replies = r :: rest) : externalRefill s = acceptReply r (s.noteCounter.withReplies rest) := by
  simp [externalRefill, h]

/-! ## A refill that fills does not see the answers behind the one it takes -/

section Filled
variable {s u : State} (rs : List CounterReply)

theorem acceptReply_moreReplies {r : CounterReply} (h : acceptReply r s = .filled u) :
    acceptReply r (moreReplies rs s) = .filled (moreReplies rs u) := by
  have hbs : (moreReplies rs s).bs = s.bs := rfl
  unfold acceptReply at h ⊢
  rw [hbs]
  split_ifs at h ⊢ <;> cases h
  rfl

theorem externalRefill_moreReplies (h : externalRefill s = .filled u) :
    externalRefill (moreReplies rs s) = .filled (moreReplies rs u) := by
  cases hr : s.replies with
  | nil => simp [externalRefill, hr] at h
  | cons r rest =>
    have hmore : (moreReplies rs s).replies = r :: (rest ++ rs) := congrArg (· ++ rs) hr
    rw [externalRefill_of_cons hr] at h
    rw [externalRefill_of_cons hmore]
    exact acceptReply_moreReplies rs h

theorem shortcutRefill_moreReplies (h : shortcutRefill s = .filled u) :
    shortcutRefill (moreReplies rs s) = .filled (moreReplies rs u) := by
  have hbs : (moreReplies rs s).bs = s.bs := rfl
  have hg : (moreReplies rs s).gen = s.gen := rfl
  unfold shortcutRefill at h ⊢
  rw [hbs, hg]
  split_ifs at h ⊢ <;> cases h
  rfl

theorem genericRefill_moreReplies (h : genericRefill s = .filled u) :
    genericRefill (moreReplies rs s) = .filled (moreReplies rs u) := by
  have hbs : (moreReplies rs s).bs = s.bs := rfl
  have hg : (moreReplies rs s).gen = s.gen := rfl
  unfold genericRefill at h ⊢
  rw [hbs, hg]
  split_ifs at h ⊢ <;> cases h
  rfl

theorem refillCtr_moreReplies (h : refillCtr s = .filled u) :
    refillCtr (moreReplies rs s) = .filled (moreReplies rs u) := by
  have hc : (moreReplies rs s).ctx = s.ctx := rfl
  have hg : (moreReplies rs s).gen = s.gen := rfl
  unfold refillCtr at h ⊢
  rw [hc, hg]
  split_ifs at h ⊢
  · exact externalRefill_moreReplies rs h
  · cases h
  · exact shortcutRefill_moreReplies rs h
  · exact genericRefill_moreReplies rs h

theorem ctrReady_moreReplies (h : ctrReady s = .filled u) :
    ctrReady (moreReplies rs s) = .filled (moreReplies rs u) := by
  have hc : (moreReplies rs s).ctx = s.ctx := rfl
  have hbs : (moreReplies rs s).bs = s.bs := rfl
  unfold ctrReady at h ⊢
  rw [hc, hbs]
  split_ifs at h ⊢
  · cases hr : refillCtr s with
    | filled v =>
      rw [hr] at h
      cases h
      rw [refillCtr_moreReplies rs hr]
      rfl
    | raised cls cause v => simp [hr, Refill.startBlock] at h
    | waiting v => simp [hr, Refill.startBlock] at h
  · cases h
    rfl

end Filled

/-! ## The byte that waits -/

/-- The block a refill has started is at hand for the byte it was fetched for (rule R190). -/
theorem ctrReady_of_startBlock {r : Refill} {v : State} (h : r.startBlock = .filled v) (hbs : 0 < v.bs) :
    ctrReady v = .filled v := by
  cases r <;> cases h
  exact if_neg (Nat.ne_of_lt hbs)

/-- A byte gets its keystream within one stage. -/
theorem ctrReady_filled_stage {s u : State} (hw : s.gen.buf.length = genWidth s.gen) (h : ctrReady s = .filled u) :
    u.stage = s.stage := by
  rcases ctrReady_cases s hw with ⟨_, he⟩ | ⟨_, v, hf, he⟩ | ⟨_, _, _, _, _, _, he⟩ | ⟨_, _, _, he⟩ <;>
    rw [he] at h <;> cases h
  · rfl
  · obtain ⟨_, _, _, hstage, _⟩ := hf
    exact hstage

section Resume
variable {w v : State} {r : CounterReply} {rest : List CounterReply}

theorem resumeRefill_filled (hw : w.replies = r :: rest)
    (h : (acceptReply r ((w.withReplies rest).withStage .run)).startBlock = .filled v) :
    resumeRefill w = ctrRun (w.inBuf.drop w.pos) v := by
  simp [resumeRefill, hw, h]

theorem resumeRefill_raised {cls cause : Byte} (hw : w.replies = r :: rest)
    (h : (acceptReply r ((w.withReplies rest).withStage .run)).startBlock = .raised cls cause v) :
    resumeRefill w = raiseStatus cls cause v := by
  simp [resumeRefill, hw, h]

theorem resumeRefill_waiting (hw : w.replies = r :: rest)
    (h : (acceptReply r ((w.withReplies rest).withStage .run)).startBlock = .waiting v) :
    resumeRefill w = v := by
  simp [resumeRefill, hw, h]

end Resume

/-- A byte that waits, or that finds the answer it would have waited for: the loop goes on alike (rules R138,
R195). -/
theorem ctrRun_waiting_resumes {n : Nat} {b : Byte} {rest : Bytes} {u w : State}
    (h : Slots.CtrLoop n (b :: rest) u) (hst : u.stage = .run) (hr : ctrReady u = .waiting w) (r : CounterReply)
    (rs : List CounterReply) :
    ctrRun (b :: rest) (moreReplies (r :: rs) u) = resumeRefill (w.withReplies (r :: rs)) := by
  rcases ctrReady_cases u h.slots.gen.bufLength with
    ⟨_, he⟩ | ⟨_, _, _, he⟩ | ⟨_, _, _, _, _, _, he⟩ | ⟨hfull, _, ⟨hext, hnone, rfl⟩, he⟩ <;>
    rw [he] at hr <;> cases hr
  have htaken : (((u.noteCounter.withStage .refillWait).withReplies (r :: rs)).withReplies rs).withStage .run
      = u.noteCounter.withReplies rs := by
    rw [← hst]; rfl
  have hmore : (moreReplies (r :: rs) u).replies = r :: rs := congrArg (· ++ (r :: rs)) hnone
  have hready : ctrReady (moreReplies (r :: rs) u) = (acceptReply r (u.noteCounter.withReplies rs)).startBlock :=
    calc ctrReady (moreReplies (r :: rs) u)
        = (refillCtr (moreReplies (r :: rs) u)).startBlock := if_pos hfull
      _ = (externalRefill (moreReplies (r :: rs) u)).startBlock := congrArg _ (if_pos hext)
      _ = (acceptReply r (u.noteCounter.withReplies rs)).startBlock := congrArg _ (externalRefill_of_cons hmore)
  have hkeeps := (Slots.acceptReply_keeps r (u.noteCounter.withReplies rs)).trans (Slots.startBlock_keeps _)
  cases hs : (acceptReply r (u.noteCounter.withReplies rs)).startBlock with
  | filled v =>
    rw [hs] at hready hkeeps
    have hbs : 0 < v.bs := hkeeps.bs ▸ h.slots.blockSizePos
    rw [ctrRun_filled b rest _ v hready, resumeRefill_filled rfl (htaken ▸ hs)]
    exact (h.todo ▸ ctrRun_filled b rest v v (ctrReady_of_startBlock hs hbs)).symm
  | raised cls cause v =>
    rw [ctrRun_raised b rest _ v cls cause (hready.trans hs), resumeRefill_raised rfl (htaken ▸ hs)]
  | waiting v =>
    rw [ctrRun_waiting b rest _ v (hready.trans hs), resumeRefill_waiting rfl (htaken ▸ hs)]

/-- The byte loop that ends in a wait goes on, with the answers `rs`, to where it comes when they stand behind the
answers it began with. -/
theorem ctrRun_resumes {n : Nat} {rs : List CounterReply} (hrs : rs ≠ []) (input : Bytes) (u : State)
    (h : Slots.CtrLoop n input u) (hst : u.stage = .run) (hw : (ctrRun input u).stage = .refillWait) :
    ctrRun input (moreReplies rs u) = resumeRefill ((ctrRun input u).withReplies rs) := by
  induction input generalizing u with
  | nil => nomatch hw
  | cons b rest ih =>
    cases hr : ctrReady u with
    | filled v =>
      rw [ctrRun_filled b rest u v hr] at hw ⊢
      rw [ctrRun_filled b rest _ _ (ctrReady_moreReplies rs hr)]
      exact ih (ctrByte b v) (h.next b rest u v hr)
        ((ctrReady_filled_stage h.slots.gen.bufLength hr).trans hst) hw
    | raised cls cause v =>
      rw [ctrRun_raised b rest u v cls cause hr] at hw
      nomatch hw
    | waiting v =>
      obtain ⟨r, rest', rfl⟩ := List.exists_cons_of_ne_nil hrs
      rw [ctrRun_waiting b rest u v hr]
      exact ctrRun_waiting_resumes h hst hr r rest'

/-! ## The command -/

/-- A CTR command that is ready runs its byte loop over the whole buffer, in either direction (rules R190,
R191). -/
theorem exec_crypt_ctr {dec : Bool} {buf : Bytes} {s : State} (h : Ready dec .ctr buf s) :
    exec (crypt dec buf) s = .next (ctrRun buf (allocate buf s)) := by
  have hlen : lengthCause s.ctx s.bs buf.length = none := by simp [lengthCause, h.mode]
  have hfits : allocFails s.params.bufCap buf.length = false := by
    cases hcap : s.params.bufCap with
    | none => rfl
    | some cap => simpa [allocFails] using h.fits cap hcap
  rw [FrontEnd.exec_crypt h.valid h.mayDecrypt, dataPhase_runs _ buf s .ctr h.nonempty h.mode hlen hfits]
  cases dec <;> rfl

/-- Settles O40: the command waits in its byte loop, and the step of a waiting block goes on with that loop. -/
theorem waitingIsTransparent : Obligations.WaitingIsTransparent := by
  intro dec buf s w rs h hexec hw hrs
  rw [exec_crypt_ctr h] at hexec
  cases hexec
  have hready : Ready dec .ctr buf (moreReplies rs s) :=
    { h with slots := ⟨h.slots.blockSizePos, h.slots.ctx, h.slots.gen⟩ }
  have hloop : Slots.CtrLoop s.bs buf (allocate buf s) :=
    ⟨⟨⟨h.slots.blockSizePos, h.slots.ctx, h.slots.gen⟩, h.valid, h.mode, rfl⟩, rfl, rfl⟩
  have hstep : step ((ctrRun buf (allocate buf s)).withReplies rs)
      = .next (resumeRefill ((ctrRun buf (allocate buf s)).withReplies rs)) := by
    simp [step, hw]
  calc exec (crypt dec buf) (moreReplies rs s)
      = .next (ctrRun buf (moreReplies rs (allocate buf s))) := exec_crypt_ctr hready
    _ = .next (resumeRefill ((ctrRun buf (allocate buf s)).withReplies rs)) :=
        congrArg _ (ctrRun_resumes hrs buf _ hloop rfl hw)
    _ = step ((ctrRun buf (allocate buf s)).withReplies rs) := hstep.symm

end Sys2Proof.Waiting
end

section
/-! PROOF of O48. `Requests` says which ports the way from one state to another may have used; it is read off one
unit of each mode, kept by the loop over units and by the byte loop of CTR, and a command that answers at once
requests nothing but the one `Init` of `CTX_NEW`. -/

open Sys2Proof Sys2Proof.Machine Sys2Proof.Spec Sys2Proof.FrontEnd Sys2Proof.Slots

namespace Sys2Proof.Ports

/-- From `s` to `t` no request was made but on the ports allowed: `ENC` if `enc`, `DEC` if `dec`, the counter
source if `source`; and never `Init`. -/
structure Requests (enc dec source : Prop) (s t : State) : Prop where
  init : t.ports.init = s.ports.init
  enc : ¬ enc → t.ports.enc = s.ports.enc
  dec : ¬ dec → t.ports.dec = s.ports.dec
  counter : ¬ source → t.ports.counter = s.ports.counter
  replies : ¬ source → t.replies = s.replies

section Requests
variable {enc dec source enc' dec' source' : Prop} {s t u : State}

/-- Nothing was requested. -/
theorem requests_of_eq (hp : t.ports = s.ports) (hr : t.replies = s.replies) : Requests enc dec source s t := by
  constructor <;> simp [hp, hr]

theorem Requests.refl (s : State) : Requests enc dec source s s := requests_of_eq rfl rfl

theorem Requests.trans (h : Requests enc dec source s t) (h' : Requests enc dec source t u) :
    Requests enc dec source s u where
  init := h'.init.trans h.init
  enc hn := (h'.enc hn).trans (h.enc hn)
  dec hn := (h'.dec hn).trans (h.dec hn)
  counter hn := (h'.counter hn).trans (h.counter hn)
  replies hn := (h'.replies hn).trans (h.replies hn)

theorem Requests.mono (h : Requests enc dec source s t) (henc : enc → enc') (hdec : dec → dec')
    (hsource : source → source') : Requests enc' dec' source' s t where
  init := h.init
  enc hn := h.enc (mt henc hn)
  dec hn := h.dec (mt hdec hn)
  counter hn := h.counter (mt hsource hn)
  replies hn := h.replies (mt hsource hn)

theorem Requests.enc_of_ne (h : Requests enc dec source s t) (hne : t.ports.enc ≠ s.ports.enc) : enc :=
  not_imp_comm.mp h.enc hne

theorem Requests.dec_of_ne (h : Requests enc dec source s t) (hne : t.ports.dec ≠ s.ports.dec) : dec :=
  not_imp_comm.mp h.dec hne

theorem Requests.source_of_ne (h : Requests enc dec source s t)
    (hne : t.ports.counter ≠ s.ports.counter ∨ t.replies ≠ s.replies) : source :=
  hne.elim (not_imp_comm.mp h.counter) (not_imp_comm.mp h.replies)

/-- One `ENC` request was made. -/
theorem requests_of_enc (henc : enc) (hp : t.ports = s.noteEnc.ports) (hr : t.replies = s.replies) :
    Requests enc dec source s t := by
  constructor <;> simp [henc, hp, hr]

/-- One `DEC` request was made. -/
theorem requests_of_dec (hdec : dec) (hp : t.ports = s.noteDec.ports) (hr : t.replies = s.replies) :
    Requests enc dec source s t := by
  constructor <;> simp [hdec, hp, hr]

/-- One request was made on the counter-source port, answered or not. -/
theorem requests_of_counter (hsource : source) (hp : t.ports = s.noteCounter.ports) :
    Requests enc dec source s t := by
  constructor <;> simp [hsource, hp]

end Requests

/-! ## The loop over units -/

/-- One unit requests at most what is allowed, and nothing of the counter source. -/
def UnitRequests {α : Type} (enc dec : Prop) (unit : State → α → State × Bytes) : Prop :=
  ∀ s x, Requests enc dec False s (unit s x).1

theorem finishUnits_requests {α : Type} {enc dec : Prop} {unit : State → α → State × Bytes}
    (h : UnitRequests enc dec unit) (us : List α) (s : State) :
    Requests enc dec False s (finishRun (runUnits unit us s)) :=
  have hrun := runUnits_keeps (Requests enc dec False s) unit us
    (fun u x _ hu => hu.trans ((h u x).trans (requests_of_eq rfl rfl))) s (.refl s)
  hrun.trans (requests_of_eq rfl rfl)

theorem ecbEncBlock_requests : UnitRequests True False ecbEncBlock := fun _ _ => requests_of_enc trivial rfl rfl
theorem ecbDecBlock_requests : UnitRequests False True ecbDecBlock := fun _ _ => requests_of_dec trivial rfl rfl
theorem cbcEncBlock_requests : UnitRequests True False cbcEncBlock := fun _ _ => requests_of_enc trivial rfl rfl
theorem cbcDecBlock_requests : UnitRequests False True cbcDecBlock := fun _ _ => requests_of_dec trivial rfl rfl
theorem cfbEncSegment_requests : UnitRequests True False cfbEncSegment := fun _ _ =>
  requests_of_enc trivial rfl rfl
theorem cfbDecSegment_requests : UnitRequests True False cfbDecSegment := fun _ _ =>
  requests_of_enc trivial rfl rfl
theorem ofbBlock_requests : UnitRequests True False ofbBlock := fun _ _ => requests_of_enc trivial rfl rfl

theorem pgpReady_requests (s : State) : Requests True False False s (pgpReady s) := by
  unfold pgpReady
  split_ifs
  · exact requests_of_enc trivial rfl rfl
  · exact .refl s

theorem pgpEncByte_requests : UnitRequests True False pgpEncByte := fun s _ =>
  (pgpReady_requests s).trans (requests_of_eq rfl rfl)

theorem pgpDecByte_requests : UnitRequests True False pgpDecByte := fun s _ =>
  (pgpReady_requests s).trans (requests_of_eq rfl rfl)

/-! ## The byte loop of CTR -/

/-- What CTR may request: `ENC`, and the counter source where the context's is external. -/
def CtrRequests (s t : State) : Prop := Requests True False (s.ctx.csrc = .external) s t

theorem acceptReply_requests (source : Prop) (r : CounterReply) (s : State) :
    Requests True False source s (refillState (acceptReply r s)) := by
  rcases acceptReply_cases r s with ⟨_, he⟩ | ⟨_, _, he⟩ | ⟨_, _, _, he⟩ <;> rw [he]
  · exact .refl s
  · exact .refl s
  · exact requests_of_enc trivial rfl rfl

theorem externalRefill_requests {s : State} (hx : s.ctx.csrc = .external) :
    CtrRequests s (refillState (externalRefill s)) := by
  unfold externalRefill
  split
  · exact requests_of_counter hx rfl
  · next r rest _ =>
    have hsent : CtrRequests s (s.noteCounter.withReplies rest) := requests_of_counter hx rfl
    exact hsent.trans (acceptReply_requests _ r _)

theorem shortcutRefill_requests (s : State) : CtrRequests s (refillState (shortcutRefill s)) := by
  rcases shortcutRefill_cases s with ⟨_, he⟩ | ⟨_, _, he⟩ | ⟨_, _, he⟩ <;> rw [he]
  · exact .refl s
  · exact .refl s
  · exact requests_of_enc trivial rfl rfl

theorem genericRefill_requests (s : State) : CtrRequests s (refillState (genericRefill s)) := by
  rcases genericRefill_cases s with ⟨_, he⟩ | ⟨_, _, he⟩ | ⟨_, _, he⟩ <;> rw [he]
  · exact .refl s
  · exact requests_of_eq rfl rfl
  · exact requests_of_enc trivial rfl rfl

theorem refillCtr_requests (s : State) : CtrRequests s (refillState (refillCtr s)) := by
  unfold refillCtr
  split_ifs with hx
  · exact externalRefill_requests hx
  · exact .refl s
  · exact shortcutRefill_requests s
  · exact genericRefill_requests s

theorem startBlock_requests {enc dec source : Prop} (r : Refill) :
    Requests enc dec source (refillState r) (refillState r.startBlock) := by
  cases r with
  | filled s => exact requests_of_eq rfl rfl
  | raised cls cause s => exact .refl s
  | waiting s => exact .refl s

theorem ctrReady_requests (s : State) : CtrRequests s (refillState (ctrReady s)) := by
  unfold ctrReady
  split_ifs
  · exact (refillCtr_requests s).trans (startBlock_requests _)
  · exact .refl s

/-- The loop stands at `u`, begun from `s`: the context still has its counter source. -/
structure CtrRequested (s u : State) : Prop where
  csrc : u.ctx.csrc = s.ctx.csrc
  requests : CtrRequests s u

theorem CtrRequested.ready {s u : State} (h : CtrRequested s u) :
    CtrRequested s (refillState (ctrReady u)) where
  csrc := (ctrReady_keeps u).csrc.trans h.csrc
  requests := h.requests.trans ((ctrReady_requests u).mono id id h.csrc.symm.trans)

theorem CtrRequested.next {s : State} (b : Byte) (_ : Bytes) (u v : State) (h : CtrRequested s u)
    (hr : ctrReady u = .filled v) : CtrRequested s (ctrByte b v) := by
  have hv : CtrRequested s v := by simpa [hr, refillState] using h.ready
  exact ⟨hv.csrc, hv.requests.trans (requests_of_eq rfl rfl)⟩

theorem ctrRun_requests (input : Bytes) (s : State) : CtrRequests s (ctrRun input s) := by
  rcases ctrRun_cases (fun _ u => CtrRequested s u) CtrRequested.next input s ⟨rfl, .refl s⟩ with
    ⟨u, h, hend⟩ | ⟨_, _, u, _, _, v, h, hr, hend⟩ | ⟨_, _, u, v, h, hr, hend⟩ <;> rw [hend]
  · exact h.requests.trans (requests_of_eq rfl rfl)
  · have hv : CtrRequested s v := by simpa [hr, refillState] using h.ready
    exact hv.requests.trans (requests_of_eq rfl rfl)
  · have hv : CtrRequested s v := by simpa [hr, refillState] using h.ready
    exact hv.requests

/-! ## Every mode -/

/-- Both columns of rule R136: `DECRYPT` in ECB and CBC mode requests `DEC` only, everything else `ENC` only. -/
theorem cryptVariant_requests (dec : Bool) (m : Mode) (s : State) :
    Requests (dec = false ∨ (m ≠ .ecb ∧ m ≠ .cbc)) (dec = true ∧ (m = .ecb ∨ m = .cbc))
      (m = .ctr ∧ s.ctx.csrc = .external) s (cryptVariant dec m s) := by
  cases dec with
  | false =>
    cases m with
    | ecb => exact (finishUnits_requests ecbEncBlock_requests _ s).mono (by simp) nofun nofun
    | cbc => exact (finishUnits_requests cbcEncBlock_requests _ s).mono (by simp) nofun nofun
    | cfb => exact (finishUnits_requests cfbEncSegment_requests _ s).mono (by simp) nofun nofun
    | pgp => exact (finishUnits_requests pgpEncByte_requests _ s).mono (by simp) nofun nofun
    | ofb => exact (finishUnits_requests ofbBlock_requests _ s).mono (by simp) nofun nofun
    | ctr => exact (ctrRun_requests _ s).mono (by simp) nofun (⟨rfl, ·⟩)
  | true =>
    cases m with
    | ecb => exact (finishUnits_requests ecbDecBlock_requests _ s).mono nofun (by simp) nofun
    | cbc => exact (finishUnits_requests cbcDecBlock_requests _ s).mono nofun (by simp) nofun
    | cfb => exact (finishUnits_requests cfbDecSegment_requests _ s).mono (by simp) nofun nofun
    | pgp => exact (finishUnits_requests pgpDecByte_requests _ s).mono (by simp) nofun nofun
    | ofb => exact (finishUnits_requests ofbBlock_requests _ s).mono (by simp) nofun nofun
    | ctr => exact (ctrRun_requests _ s).mono (by simp) nofun (⟨rfl, ·⟩)

/-! ## Every command -/

theorem exists_crypt_of_isDataCommand {i : Instr} (h : isDataCommand i = true) : ∃ dec buf, i = crypt dec buf := by
  cases i with
  | encrypt buf => exact ⟨false, buf, rfl⟩
  | decrypt buf => exact ⟨true, buf, rfl⟩
  | _ => cases h

/-- A command answers at once or runs the column of rule R136 of its direction. -/
theorem exec_answers_or_runs_variant {i : Instr} {s t : State} (h : exec i s = .next t) :
    Answers s i t ∨
    ∃ dec buf m, i = crypt dec buf ∧ s.ctx.mode = some m ∧ t = cryptVariant dec m (allocate buf s) := by
  rcases exec_cases h with ha | ⟨hdata, hv, _⟩
  · exact .inl ha
  obtain ⟨dec, buf, rfl⟩ := exists_crypt_of_isDataCommand hdata
  by_cases hp : dec = true → s.ctx.prfMode = false
  · rw [exec_crypt hv hp] at h
    rcases dataPhase_cases _ _ _ _ h with ⟨_, rfl⟩ | ⟨_, c, _, rfl⟩ | ⟨_, _, _, rfl⟩ | ⟨_, _, _, m, hm, rfl⟩
    · exact .inl (answers_complete (.nothing _) _)
    · exact .inl (answers_raise (.nothing _) c)
    · exact .inl (answers_raise (.nothing _) _)
    · exact .inr ⟨dec, buf, m, rfl, hm, rfl⟩
  · obtain ⟨rfl, hprf⟩ := Classical.not_imp.mp hp
    have hraise : exec (crypt true buf) s = .next (raise .decryptDisabled s) := by
      simp [crypt, exec, execDecrypt, hv, hprf]
    rw [hraise] at h
    cases h
    exact .inl (answers_raise (.nothing _) _)

/-- A command that answers at once requests nothing, or is `CTX_NEW` and requests `Init` once (rule R117). -/
theorem writes_requests {s u : State} {i : Instr} (h : Writes s i u) :
    u.replies = s.replies ∧
    (u.ports = s.ports ∨
      (∃ mode csrc key iv seg, i = .ctxNew mode csrc key iv seg) ∧ u.ports = s.noteInit.ports) := by
  cases h with
  | initRequest | newContext => exact ⟨rfl, .inr ⟨⟨_, _, _, _, _, rfl⟩, rfl⟩⟩
  | _ => exact ⟨rfl, .inl rfl⟩

/-- Settles O48: a command that answers at once makes at most the one `Init` request, and a data phase requests what
its mode and direction allow. -/
theorem portsAreUsedOnlyAsTheRulesSay : Obligations.PortsAreUsedOnlyAsTheRulesSay := by
  intro i s t h
  rcases exec_answers_or_runs_variant h with ⟨u, _, _, hw, rfl⟩ | ⟨dec, buf, m, rfl, hm, rfl⟩
  · obtain ⟨hreplies, hports | ⟨hnew, hports⟩⟩ := writes_requests hw
    · simp [answered, hreplies, hports]
    · simp [answered, hreplies, hports, hnew]
  · have hr := (requests_of_eq rfl rfl : Requests _ _ _ s (allocate buf s)).trans
      (cryptVariant_requests dec m (allocate buf s))
    refine ⟨fun hne => ?_, fun hne => ?_, fun hne => absurd hr.init hne, fun hne => ?_⟩
    · cases dec with
      | false => exact .inl ⟨buf, rfl⟩
      | true =>
        obtain ⟨hecb, hcbc⟩ := (hr.enc_of_ne hne).resolve_left nofun
        exact .inr ⟨⟨buf, rfl⟩, by simp [hm, hecb], by simp [hm, hcbc]⟩
    · obtain ⟨rfl, hmode⟩ := hr.dec_of_ne hne
      exact ⟨⟨buf, rfl⟩, by simpa [hm] using hmode⟩
    · obtain ⟨rfl, hext⟩ := hr.source_of_ne hne
      exact ⟨by cases dec <;> rfl, hm, hext⟩

end Sys2Proof.Ports
end

section
/-! PROOFS of O2 to O5, O13: the decoder undone. A header that a row selects has its fields where the row's mask
and match words put them (`extract_of_selects`), so it is the header built of its own fields
(`header_eq_makeHeader`), and step (4) of rule R91 gives back a command that encodes to the operands it was made of
(`encode_of_decodeOperands`). A transaction that is not illegal has the operands its row lists, from which step (4)
makes a command (`exists_decodeOperands`). -/

open Sys2Proof Sys2Proof.Machine Sys2Proof.Spec

namespace Sys2Proof.Encoding

/-! ## The fields of a selected header -/

section Selected
variable {op : Opcode} {h : Word}

theorem opcodeSelects_iff : opcodeSelects op h = true ↔ h &&& opcodeMask op = opcodeMatch op := beq_iff_eq

/-- Selection of a row, read at one field of the header. -/
theorem extract_of_selects (hs : opcodeSelects op h = true) (start len : Nat) :
    h.extractLsb' start len &&& (opcodeMask op).extractLsb' start len = (opcodeMatch op).extractLsb' start len := by
  rw [← BitVec.extractLsb'_and, opcodeSelects_iff.mp hs]

/-- A field that the row's mask covers is as in its match word. -/
theorem extract_eq_of_masked (hs : opcodeSelects op h = true) {start len : Nat}
    (hmask : (opcodeMask op).extractLsb' start len = BitVec.allOnes len) :
    h.extractLsb' start len = (opcodeMatch op).extractLsb' start len := by
  rw [← extract_of_selects hs, hmask, BitVec.and_allOnes]

/-- The match word of every row has the row's `OPC` (rule R89), and its mask covers that field. -/
theorem headerOpc_of_selects (hs : opcodeSelects op h = true) : headerOpc h = opcodeNumber op := by
  have hmask : (opcodeMask op).extractLsb' 24 8 = BitVec.allOnes 8 := by cases op <;> rfl
  have hmatch : (opcodeMatch op).extractLsb' 24 8 = opcodeNumber op := by cases op <;> rfl
  exact (extract_eq_of_masked hs hmask).trans hmatch

/-- Bits 23:10 are must-be-zero in every row (rule R85). -/
theorem reserved_of_selects (hs : opcodeSelects op h = true) : h.extractLsb' 10 14 = 0#14 := by
  have hmask : (opcodeMask op).extractLsb' 10 14 = BitVec.allOnes 14 := by cases op <;> rfl
  have hmatch : (opcodeMatch op).extractLsb' 10 14 = 0#14 := by cases op <;> rfl
  exact (extract_eq_of_masked hs hmask).trans hmatch

/-- `CSRC` is must-be-zero in every row but that of `CTX_NEW` (rule R85). -/
theorem headerCsrc_of_selects (hs : opcodeSelects op h = true) (hop : op ≠ .ctxNew) : headerCsrc h = 0 := by
  have hmask : (opcodeMask op).extractLsb' 8 2 = BitVec.allOnes 2 := by
    cases op with
    | ctxNew => exact absurd rfl hop
    | _ => rfl
  have hmatch : (opcodeMatch op).extractLsb' 8 2 = 0#2 := by cases op <;> rfl
  exact (extract_eq_of_masked hs hmask).trans hmatch

theorem headerArg_masked (hs : opcodeSelects op h = true) :
    headerArg h &&& (opcodeMask op).extractLsb' 0 8 = 0 := by
  have hmatch : (opcodeMatch op).extractLsb' 0 8 = 0#8 := by cases op <;> rfl
  exact (extract_of_selects hs 0 8).trans hmatch

theorem headerArg_eq_zero (hs : opcodeSelects op h = true)
    (hmask : (opcodeMask op).extractLsb' 0 8 = 0xFF) : headerArg h = 0 := by
  have hz := headerArg_masked hs
  rw [hmask] at hz
  exact (BitVec.and_allOnes (x := headerArg h)).symm.trans hz

/-- `ARG` of `SET_PRF` is `V` alone (rule R86). -/
theorem setPrfArg_headerBit0 (hs : opcodeSelects .setPrf h = true) :
    encodeArg (.setPrf (headerBit0 h)) = headerArg h := by
  have hz : headerArg h &&& 0xFE = 0 := headerArg_masked hs
  rw [headerBit0_eq]
  generalize headerArg h = a at hz ⊢
  revert a
  decide

/-- `ARG` of the two constructors of the generator is `DS` and `AW` alone (rule R86). -/
theorem genArg_headerBits (hs : opcodeSelects op h = true)
    (hmask : (opcodeMask op).extractLsb' 0 8 = 0xFC) : genArg (headerBit0 h) (headerBit1 h) = headerArg h := by
  have hz := headerArg_masked hs
  rw [hmask] at hz
  rw [headerBit0_eq, headerBit1_eq]
  generalize headerArg h = a at hz ⊢
  revert a
  decide

theorem header_eq_makeHeader (hs : opcodeSelects op h = true) :
    h = makeHeader (opcodeNumber op) (headerCsrc h) (headerArg h) := by
  have hjoin : h.extractLsb' 24 8 ++ h.extractLsb' 10 14 ++ h.extractLsb' 8 2 ++ h.extractLsb' 0 8 = h := by
    rw [BitVec.extractLsb'_append_extractLsb'_eq_extractLsb' (by rfl),
      BitVec.extractLsb'_append_extractLsb'_eq_extractLsb' (by rfl),
      BitVec.extractLsb'_append_extractLsb'_eq_extractLsb' (by rfl)]
    exact BitVec.extractLsb'_eq_self
  rw [makeHeader, ← headerOpc_of_selects hs, ← reserved_of_selects hs]
  exact hjoin.symm

end Selected

theorem opcodeNumber_injective {a b : Opcode} (h : opcodeNumber a = opcodeNumber b) : a = b := by
  have hrow := congrArg opcodeOfNumber h
  simpa using hrow

/-- Settles O5: `OPC` of the header is the number of each of the two rows, and no two rows share a number. -/
theorem opcodeRowsAreDisjoint : Obligations.OpcodeRowsAreDisjoint := by
  intro h a b ha hb
  have hnumber : opcodeNumber a = opcodeNumber b :=
    (headerOpc_of_selects (opcodeSelects_iff.mpr ha)).symm.trans (headerOpc_of_selects (opcodeSelects_iff.mpr hb))
  exact opcodeNumber_injective hnumber

/-! ## Words of the spec -/

/-- Settles O4, by evaluating the decoder on the fifteen words. -/
theorem wordsFromTheSpecDecode : Obligations.WordsFromTheSpecDecode := by
  unfold Obligations.WordsFromTheSpecDecode
  decide

/-! ## Steps (1) to (3) of rule R91 -/

theorem opcodeOfNumber_eq_some_iff {b : Byte} {op : Opcode} : opcodeOfNumber b = some op ↔ opcodeNumber op = b := by
  constructor
  · intro h
    simpa using List.find?_some h
  · rintro rfl
    exact opcodeOfNumber_opcodeNumber op

theorem csrcOfNumber_eq_some_iff {b : BitVec 2} {c : CounterSource} :
    csrcOfNumber b = some c ↔ csrcNumber c = b := by
  constructor
  · revert b c
    decide
  · rintro rfl
    exact csrcOfNumber_csrcNumber c

/-- 3 is the one reserved `CSRC` number (rule R93). -/
theorem csrcOfNumber_eq_none_iff {b : BitVec 2} : csrcOfNumber b = none ↔ b = 3 := by
  revert b
  decide

/-- Steps (1) to (3) find the row that selects the header, unless it is `CTX_NEW` with the reserved `CSRC`. -/
theorem checkHeader_eq_ok_iff {h : Word} {op : Opcode} : checkHeader h = .ok op ↔
    opcodeSelects op h = true ∧ (op = .ctxNew → headerCsrc h ≠ 3) := by
  constructor
  · intro hc
    unfold checkHeader at hc
    split at hc
    · cases hc
    · split_ifs at hc with hs hr
      cases hc
      exact ⟨by simpa using hs, fun hop hcsrc => hr ⟨hop, csrcOfNumber_eq_none_iff.mpr hcsrc⟩⟩
  · rintro ⟨hs, hr⟩
    have hrow : opcodeOfNumber (headerOpc h) = some op :=
      opcodeOfNumber_eq_some_iff.mpr (headerOpc_of_selects hs).symm
    have hcsrc : ¬ (op = .ctxNew ∧ csrcOfNumber (headerCsrc h) = none) :=
      fun ⟨hop, hnone⟩ => hr hop (csrcOfNumber_eq_none_iff.mp hnone)
    simp [checkHeader, hrow, hs, hcsrc]

theorem decode_eq_ok_iff {t : Transaction} {i : Instr} : decode t = .ok i ↔
    ∃ op, checkHeader t.header = .ok op ∧ decodeOperands op t.header t.operands = .ok i := by
  unfold decode
  cases checkHeader t.header <;> simp

/-! ## Step (4) of rule R91 -/

section Operands
variable {ops : List Operand} {i : Instr}

theorem noOperands_eq_ok_iff {j : Instr} : noOperands ops j = .ok i ↔ ops = [] ∧ i = j := by
  unfold noOperands
  split <;> simp_all [eq_comm]

theorem bufOperand_eq_ok_iff {f : Bytes → Instr} :
    bufOperand ops f = .ok i ↔ ∃ b, ops = [.bytes b] ∧ i = f b := by
  unfold bufOperand
  split <;> simp_all [eq_comm]

theorem genOperands_eq_ok_iff {f : Bytes → Bytes → Bytes → Instr} :
    genOperands ops f = .ok i ↔ ∃ p q v, ops = [.bytes p, .bytes q, .bytes v] ∧ i = f p q v := by
  unfold genOperands
  split <;> simp_all [eq_comm]

theorem ctxNewOperands_eq_ok_iff {h : Word} : ctxNewOperands h ops = .ok i ↔
    ∃ c key iv seg, csrcNumber c = headerCsrc h ∧ ops = [.bytes key, .bytes iv, .word seg] ∧
      i = .ctxNew (headerArg h) c key iv seg := by
  unfold ctxNewOperands
  simp only [← csrcOfNumber_eq_some_iff]
  cases csrcOfNumber (headerCsrc h) with
  | none => simp
  | some c =>
    simp only [Option.some.injEq]
    split <;> simp_all [eq_comm]

end Operands

/-- What step (4) makes of a selected header and its operands has that row, those header fields and those
operands. -/
theorem encode_of_decodeOperands {op : Opcode} {h : Word} {ops : List Operand} {i : Instr}
    (hs : opcodeSelects op h = true) (hd : decodeOperands op h ops = .ok i) :
    opcodeOf i = op ∧ encodeCsrc i = headerCsrc h ∧ encodeArg i = headerArg h ∧ encodeOperands i = ops := by
  have hcsrc := headerCsrc_of_selects hs
  have harg := headerArg_eq_zero hs
  have hbits := genArg_headerBits hs
  cases op with
  | ctxNew =>
    obtain ⟨c, key, iv, seg, hc, rfl, rfl⟩ := ctxNewOperands_eq_ok_iff.mp hd
    exact ⟨rfl, hc, rfl, rfl⟩
  | encrypt | decrypt =>
    obtain ⟨b, rfl, rfl⟩ := bufOperand_eq_ok_iff.mp hd
    exact ⟨rfl, (hcsrc nofun).symm, (harg rfl).symm, rfl⟩
  | setPrf =>
    obtain ⟨rfl, rfl⟩ := noOperands_eq_ok_iff.mp hd
    exact ⟨rfl, (hcsrc nofun).symm, setPrfArg_headerBit0 hs, rfl⟩
  | genNewBe | genNewLe =>
    obtain ⟨p, q, v, rfl, rfl⟩ := genOperands_eq_ok_iff.mp hd
    exact ⟨rfl, (hcsrc nofun).symm, hbits rfl, rfl⟩
  | _ =>
    obtain ⟨rfl, rfl⟩ := noOperands_eq_ok_iff.mp hd
    exact ⟨rfl, (hcsrc nofun).symm, (harg rfl).symm, rfl⟩

/-- Settles O2: the header of a transaction that decodes is built of the fields its command encodes. -/
theorem transactionDecodesExactlyToWhatEncodesIt : Obligations.TransactionDecodesExactlyToWhatEncodesIt := by
  intro t i
  constructor
  · intro hd
    obtain ⟨op, hc, hops⟩ := decode_eq_ok_iff.mp hd
    obtain ⟨hs, _⟩ := checkHeader_eq_ok_iff.mp hc
    obtain ⟨hop, hcsrc, harg, hoperands⟩ := encode_of_decodeOperands hs hops
    have hheader : encodeHeader i = t.header := by
      rw [encodeHeader, hop, hcsrc, harg, ← header_eq_makeHeader hs]
    rw [encode, hheader, hoperands]
  · rintro rfl
    exact decode_encode i

/-! ## Illegal transactions -/

theorem operandKindOf_eq_bytes {o : Operand} : operandKindOf o = .bytes ↔ ∃ b, o = .bytes b := by
  cases o <;> simp [operandKindOf]

theorem operandKindOf_eq_word {o : Operand} : operandKindOf o = .word ↔ ∃ w, o = .word w := by
  cases o <;> simp [operandKindOf]

/-- Operands of the kinds a row lists make a command of that row (rule R88). -/
theorem exists_decodeOperands {op : Opcode} {h : Word} {ops : List Operand} (hcsrc : headerCsrc h ≠ 3)
    (hk : ops.map operandKindOf = operandKinds op) : ∃ i, decodeOperands op h ops = .ok i := by
  cases op with
  | ctxNew =>
    obtain ⟨c, hc⟩ := Option.ne_none_iff_exists'.mp (mt csrcOfNumber_eq_none_iff.mp hcsrc)
    simp only [operandKinds, List.map_eq_cons_iff, List.map_eq_nil_iff, operandKindOf_eq_bytes,
      operandKindOf_eq_word] at hk
    obtain ⟨_, _, rfl, ⟨key, rfl⟩, _, _, rfl, ⟨iv, rfl⟩, _, _, rfl, ⟨seg, rfl⟩, rfl⟩ := hk
    exact ⟨_, ctxNewOperands_eq_ok_iff.mpr ⟨c, key, iv, seg, csrcOfNumber_eq_some_iff.mp hc, rfl, rfl⟩⟩
  | encrypt | decrypt =>
    simp only [operandKinds, List.map_eq_cons_iff, List.map_eq_nil_iff, operandKindOf_eq_bytes] at hk
    obtain ⟨_, _, rfl, ⟨b, rfl⟩, rfl⟩ := hk
    exact ⟨_, rfl⟩
  | genNewBe | genNewLe =>
    simp only [operandKinds, List.map_eq_cons_iff, List.map_eq_nil_iff, operandKindOf_eq_bytes] at hk
    obtain ⟨_, _, rfl, ⟨p, rfl⟩, _, _, rfl, ⟨q, rfl⟩, _, _, rfl, ⟨v, rfl⟩, rfl⟩ := hk
    exact ⟨_, rfl⟩
  | _ =>
    obtain rfl := List.map_eq_nil_iff.mp hk
    exact ⟨_, rfl⟩

/-- No command is encoded as an illegal transaction. -/
theorem not_illegal_encode (i : Instr) : ¬ IllegalTransaction (encode i) := by
  have hopc : (encode i).header.extractLsb' 24 8 = opcodeNumber (opcodeOf i) := headerOpc_makeHeader ..
  have hrow {op : Opcode} (h : opcodeNumber op = (encode i).header.extractLsb' 24 8) : op = opcodeOf i :=
    opcodeNumber_injective (h.trans hopc)
  rintro (hunknown | ⟨op, hop, hmbz⟩ | hcsrc | ⟨op, hop, hkinds⟩)
  · exact hunknown (opcodeOf i) hopc.symm
  · cases hrow hop
    exact hmbz (opcodeSelects_iff.mp (encodeHeader_selected i))
  · obtain ⟨c, hc⟩ := encodeCsrc_eq_csrcNumber i
    have hthree : csrcNumber c = 3 := hc.symm.trans ((headerCsrc_makeHeader ..).symm.trans hcsrc)
    cases c <;> simp [csrcNumber] at hthree
  · cases hrow hop
    exact hkinds (encodeOperands_kinds i)

theorem exists_decode_of_not_illegal {t : Transaction} (h : ¬ IllegalTransaction t) : ∃ i, decode t = .ok i := by
  unfold IllegalTransaction at h
  push Not at h
  obtain ⟨⟨op, hop⟩, hmbz, hcsrc, hkinds⟩ := h
  obtain ⟨i, hi⟩ := exists_decodeOperands (h := t.header) hcsrc (hkinds op hop)
  have hcheck : checkHeader t.header = .ok op :=
    checkHeader_eq_ok_iff.mpr ⟨opcodeSelects_iff.mpr (hmbz op hop), fun _ => hcsrc⟩
  exact ⟨i, decode_eq_ok_iff.mpr ⟨op, hcheck, hi⟩⟩

theorem exists_decode_iff_not_illegal (t : Transaction) : (∃ i, decode t = .ok i) ↔ ¬ IllegalTransaction t := by
  constructor
  · rintro ⟨i, hi⟩
    rw [(transactionDecodesExactlyToWhatEncodesIt t i).mp hi]
    exact not_illegal_encode i
  · exact exists_decode_of_not_illegal

/-! ## Status words -/

/-- Raising a cause whose status word has the value `w` answers `w` and writes nothing else (rule R242). -/
theorem raise_eq_answered_of_status {c : Cause} {w : Word} (h : statusWord (causeClass c) (causeCode c) = w)
    (s : State) : raise c s = answered s w [] := h ▸ raise_eq_answered c s

/-- Settles O13: the class and the cause number of each of the nineteen make the word of rule R236. -/
theorem statusWordOfEveryCause : Obligations.StatusWordOfEveryCause := by
  intro s
  and_intros <;> exact raise_eq_answered_of_status rfl s

/-- Settles O3: an illegal transaction does not decode, so the step takes it whole and raises. -/
theorem illegalCommandIsRefusedWhole : Obligations.IllegalCommandIsRefusedWhole := by
  refine ⟨fun s t rest hst hport hillegal => ?_, exists_decode_iff_not_illegal⟩
  rw [step_idle hst hport]
  rcases runTransaction_cases t (accept rest s) with ⟨_, _, hraise⟩ | ⟨i, hd, _⟩
  · rw [hraise, raise_eq_answered_of_status rfl]
    rfl
  · exact absurd hillegal ((exists_decode_iff_not_illegal t).mp ⟨i, hd⟩)

end Sys2Proof.Encoding
end

section
/-! PROOF of O10. No unit and no refill sends anything (`UnitSilent`, `ctrReady_dataOut`), so a data phase sends the
one response it ends with, or none where its byte loop of CTR waits; every other command is an answer over what it
`Writes`. -/

open Sys2Proof Sys2Proof.Machine Sys2Proof.Spec Sys2Proof.Slots

namespace Sys2Proof.Responses

/-- The command taken at `s` has ended at `t` with one response, or waits at `t` with none sent. -/
def EndsOrWaits (s t : State) : Prop :=
  (t.stage = .idle ∧ ∃ r, t.dataOut = s.dataOut ++ [r]) ∨ (t.stage = .refillWait ∧ t.dataOut = s.dataOut)

/-- What has sent nothing yet ends with the response of its answer. -/
theorem endsOrWaits_answered {s u : State} (h : u.dataOut = s.dataOut) (status : Word) (result : Bytes) :
    EndsOrWaits s (answered u status result) :=
  .inl ⟨rfl, { status := status, result := result }, by rw [answered_dataOut, h]⟩

theorem writes_dataOut {s u : State} {i : Instr} (h : Writes s i u) : u.dataOut = s.dataOut := by
  cases h <;> rfl

/-! ## The loop over units -/

/-- One unit sends nothing. -/
def UnitSilent {α : Type} (unit : State → α → State × Bytes) : Prop :=
  ∀ s x, (unit s x).1.dataOut = s.dataOut

theorem finishUnits_endsOrWaits {α : Type} {unit : State → α → State × Bytes} (h : UnitSilent unit)
    (us : List α) (s : State) : EndsOrWaits s (finishRun (runUnits unit us s)) :=
  have hrun := runUnits_keeps (fun u => u.dataOut = s.dataOut) unit us (fun u x _ hu => (h u x).trans hu) s rfl
  endsOrWaits_answered hrun _ _

theorem pgpReady_dataOut (s : State) : (pgpReady s).dataOut = s.dataOut := by
  unfold pgpReady
  split_ifs <;> rfl

theorem pgpEncByte_silent : UnitSilent pgpEncByte := fun s _ => pgpReady_dataOut s

theorem pgpDecByte_silent : UnitSilent pgpDecByte := fun s _ => pgpReady_dataOut s

/-! ## The byte loop of CTR -/

theorem ctrReady_dataOut {s : State} (hg : GeneratorInv s.gen) :
    (refillState (ctrReady s)).dataOut = s.dataOut := by
  rcases ctrReady_cases s hg.bufLength with
    ⟨_, he⟩ | ⟨_, u, hf, he⟩ | ⟨_, _, _, u, _, hf, he⟩ | ⟨_, u, hf, he⟩ <;> rw [he]
  · rfl
  · obtain ⟨_, _, _, _, _, _, _, _, hdata⟩ := hf
    exact hdata
  · obtain ⟨_, _, _, _, _, _, _, _, hdata⟩ := hf
    exact hdata
  · obtain ⟨_, _, rfl⟩ := hf
    rfl

theorem ctrReady_waiting_stage {s u : State} (hg : GeneratorInv s.gen) (hr : ctrReady s = .waiting u) :
    u.stage = .refillWait := by
  rcases ctrReady_cases s hg.bufLength with
    ⟨_, he⟩ | ⟨_, _, _, he⟩ | ⟨_, _, _, _, _, _, he⟩ | ⟨_, _, hf, he⟩ <;> rw [he] at hr <;> cases hr
  obtain ⟨_, _, rfl⟩ := hf
  rfl

/-- The loop stands at `u`, begun from `s`, and has sent nothing. -/
structure CtrSilent (s u : State) : Prop where
  gen : GeneratorInv u.gen
  dataOut : u.dataOut = s.dataOut

theorem CtrSilent.ready {s u : State} (h : CtrSilent s u) : CtrSilent s (refillState (ctrReady u)) where
  gen := generatorInv_drawn h.gen (ctrReady_keeps u).gen
  dataOut := (ctrReady_dataOut h.gen).trans h.dataOut

theorem CtrSilent.next {s : State} (b : Byte) (_ : Bytes) (u v : State) (h : CtrSilent s u)
    (hr : ctrReady u = .filled v) : CtrSilent s (ctrByte b v) := by
  have hv : CtrSilent s v := by simpa [hr, refillState] using h.ready
  exact ⟨hv.gen, hv.dataOut⟩

theorem CtrSilent.ctrRun_endsOrWaits {s u : State} (h : CtrSilent s u) (input : Bytes) :
    EndsOrWaits s (ctrRun input u) := by
  rcases ctrRun_cases (fun _ v => CtrSilent s v) CtrSilent.next input u h with
    ⟨v, hv, hend⟩ | ⟨_, _, v, _, _, w, hv, hr, hend⟩ | ⟨_, _, v, w, hv, hr, hend⟩ <;> rw [hend]
  · exact endsOrWaits_answered hv.dataOut _ _
  · have hw : CtrSilent s w := by simpa [hr, refillState] using hv.ready
    exact endsOrWaits_answered hw.dataOut _ _
  · have hw : CtrSilent s w := by simpa [hr, refillState] using hv.ready
    exact .inr ⟨ctrReady_waiting_stage hv.gen hr, hw.dataOut⟩

theorem resumeRefill_nil {s : State} (h : s.replies = []) : resumeRefill s = s := by
  simp [resumeRefill, h]

/-- A waiting command that has its answer fails with it, or goes on in its byte loop (rules R138, R195). -/
theorem resumeRefill_endsOrWaits {s : State} (hg : GeneratorInv s.gen) (hne : s.replies ≠ []) :
    EndsOrWaits s (resumeRefill s) := by
  obtain ⟨r, rest, hr⟩ := List.exists_cons_of_ne_nil hne
  rcases acceptReply_cases r ((s.withReplies rest).withStage .run) with
    ⟨_, he⟩ | ⟨_, _, he⟩ | ⟨_, _, _, he⟩
  · rw [Waiting.resumeRefill_raised hr (congrArg Refill.startBlock he)]
    exact endsOrWaits_answered rfl _ _
  · rw [Waiting.resumeRefill_raised hr (congrArg Refill.startBlock he)]
    exact endsOrWaits_answered rfl _ _
  · rw [Waiting.resumeRefill_filled hr (congrArg Refill.startBlock he)]
    refine CtrSilent.ctrRun_endsOrWaits ?_ _
    exact ⟨hg, rfl⟩

/-! ## Every command -/

theorem variant_endsOrWaits {variant : Mode → State → State}
    (hvar : variant = encryptVariant ∨ variant = decryptVariant) (m : Mode) {s : State} (hg : GeneratorInv s.gen) :
    EndsOrWaits s (variant m s) := by
  have hctr : EndsOrWaits s (ctrRun s.inBuf s) := CtrSilent.ctrRun_endsOrWaits ⟨hg, rfl⟩ _
  rcases hvar with rfl | rfl
  · cases m with
    | pgp => exact finishUnits_endsOrWaits pgpEncByte_silent _ s
    | ctr => exact hctr
    | _ => exact finishUnits_endsOrWaits (fun _ _ => rfl) _ s
  · cases m with
    | pgp => exact finishUnits_endsOrWaits pgpDecByte_silent _ s
    | ctr => exact hctr
    | _ => exact finishUnits_endsOrWaits (fun _ _ => rfl) _ s

theorem exec_endsOrWaits {i : Instr} {s t : State} (hg : GeneratorInv s.gen) (h : exec i s = .next t) :
    EndsOrWaits s t := by
  rcases exec_cases h with ⟨u, status, result, hw, rfl⟩ | ⟨_, _, variant, m, buf, hvar, _, rfl⟩
  · exact endsOrWaits_answered (writes_dataOut hw) status result
  · exact variant_endsOrWaits (s := allocate buf s) hvar m hg

theorem runTransaction_endsOrWaits {tr : Transaction} {s t : State} (hg : GeneratorInv s.gen)
    (h : runTransaction tr s = .next t) : EndsOrWaits s t := by
  rcases runTransaction_cases tr s with ⟨_, _, he⟩ | ⟨i, _, he⟩ <;> rw [he] at h
  · cases h
    exact endsOrWaits_answered rfl _ _
  · exact exec_endsOrWaits hg h

/-- Settles O10: the three ways of a step, each of which meets the premises of its own clauses only. -/
theorem oneResponsePerCommand : Obligations.OneResponsePerCommand := by
  intro s t hs h
  have hg := hs.slots.gen
  rcases step_cases s t h with ⟨hst, hport, rfl⟩ | ⟨hst, tr, rest, hport, hrun⟩ | ⟨hst, rfl⟩
  · simp [hst, hport]
  · have hends : EndsOrWaits s t := runTransaction_endsOrWaits (s := accept rest s) hg hrun
    exact ⟨by simp [hport], fun _ _ => hends, by simp [hst], by simp [hst]⟩
  · exact ⟨by simp [hst], by simp [hst], fun _ => resumeRefill_nil, fun _ => resumeRefill_endsOrWaits hg⟩

end Sys2Proof.Responses
end

section
/-! PROOFS of O12, O14, O16, O20, O21: building and clearing a context, and what a refused command keeps.
`ctxNewCause_eq` says the checks of `CTX_NEW` in the words of rules R111 to R116, and the clauses of O16 and the
success of O20 are read off it. `FailsClean` is the frame of a refused command, carried through the guards of every
meaning to the raise or the `OK` answer it ends in. -/

open Sys2Proof Sys2Proof.Machine Sys2Proof.Spec

namespace Sys2Proof.Construction

/-! ## Destroying the slots -/

theorem exec_ctxDestroy_valid {s : State} (hv : s.ctx.valid = true) :
    exec .ctxDestroy s = .next (answered (s.withCtx (Context.cleared s.bs)) 0 []) := by
  simp [exec, execCtxDestroy, hv, complete_eq_answered]

theorem exec_ctxDestroy_empty {s : State} (hv : s.ctx.valid = false) :
    exec .ctxDestroy s = .next (answered s 0x00000201 []) := by
  have hraise : raise .noContext s = answered s 0x00000201 [] := Encoding.raise_eq_answered_of_status rfl s
  rw [← hraise]
  simp [exec, execCtxDestroy, hv]

theorem exec_genDestroy_valid {s : State} (hv : s.gen.valid = true) :
    exec .genDestroy s = .next (answered (s.withGen Generator.cleared) 0 []) := by
  simp [exec, execGenDestroy, hv, complete_eq_answered]

/-- Settles O21: the two branches of `execCtxDestroy`, the context cleared being the record of rule R35. -/
theorem ctxDestroyClearsTheContext : Obligations.CtxDestroyClearsTheContext := by
  exact fun s => ⟨exec_ctxDestroy_empty, exec_ctxDestroy_valid⟩

/-- Settles O12: `CTX_DESTROY` leaves the generator for `GEN_DESTROY` to find, and the two together write every field
that a platform reset writes. -/
theorem destroyingBothSlotsGivesTheResetState : Obligations.DestroyingBothSlotsGivesTheResetState := by
  intro s hctx hgen
  refine ⟨_, _, exec_ctxDestroy_valid hctx, exec_genDestroy_valid hgen, ?_, rfl, rfl, rfl, rfl⟩
  simp [answered, platformReset, State.withCtx, State.withGen]

/-! ## The checks of `CTX_NEW` -/

theorem keyLengthBad_iff {key : Bytes} {s : State} : keyLengthBad s.ks key.length = true ↔ ¬ KeyOk key s := by
  simp only [keyLengthBad, KeyOk, Bool.or_eq_true, Bool.and_eq_true, beq_iff_eq, bne_iff_ne]
  tauto

theorem mem_modeTable_iff {mode : Byte} {m : Mode} : (mode, m) ∈ modeTable ↔ mode = modeNumber m := by
  cases m <;> simp [modeTable, modeNumber]

theorem modeOfNumber_modeNumber (m : Mode) : modeOfNumber (modeNumber m) = some m := by
  cases m <;> rfl

theorem modeOk_modeNumber (m : Mode) : ModeOk (modeNumber m) := by
  cases m <;> simp [ModeOk, modeNumber]

theorem modeOk_iff_exists {mode : Byte} : ModeOk mode ↔ ∃ m, mode = modeNumber m := by
  refine ⟨?_, fun ⟨m, hm⟩ => hm ▸ modeOk_modeNumber m⟩
  rintro (h | h | h | h | h | h)
  exacts [⟨.ecb, h⟩, ⟨.cbc, h⟩, ⟨.cfb, h⟩, ⟨.pgp, h⟩, ⟨.ofb, h⟩, ⟨.ctr, h⟩]

theorem modeOfNumber_of_not_modeOk {mode : Byte} (h : ¬ ModeOk mode) : modeOfNumber mode = none := by
  simp only [ModeOk, not_or] at h
  simp only [modeOfNumber, h, if_false]

theorem modeNumber_eq_iff {m k : Mode} : modeNumber m = modeNumber k ↔ m = k := by
  refine ⟨fun h => ?_, congrArg modeNumber⟩
  have hsome := congrArg modeOfNumber h
  simpa only [modeOfNumber_modeNumber, Option.some.injEq] using hsome

theorem pgpBlockOk_iff {m : Mode} {s : State} : PgpBlockOk (modeNumber m) s ↔ (m = .pgp → 8 ≤ s.bs) :=
  imp_congr_left (modeNumber_eq_iff (k := .pgp))

theorem segmentSizeOk_iff {seg : Word} {bs : Nat} : segmentSizeOk (segOf seg) bs = true ↔
    1 ≤ segAsked seg ∧ segAsked seg ≤ bs * 8 ∧ segAsked seg % 8 = 0 := by
  simp only [segmentSizeOk, Bool.and_eq_true, decide_eq_true_eq, beq_iff_eq, and_assoc]
  exact Iff.rfl

theorem segOk_iff {m : Mode} {seg : Word} {s : State} :
    SegOk (modeNumber m) seg s ↔ (m = .cfb → segmentSizeOk (segOf seg) s.bs = true) := by
  rw [segmentSizeOk_iff]
  exact imp_congr_left (modeNumber_eq_iff (k := .cfb))

theorem counterGiven_iff {m : Mode} {csrc : CounterSource} :
    CounterGiven (modeNumber m) csrc ↔ (m = .ctr ↔ csrc ≠ .none) :=
  iff_congr (modeNumber_eq_iff (k := .ctr)) Iff.rfl

open scoped Classical in
/-- Checks 4 to 6 in the words of rules R114 to R116. -/
theorem modeCause_eq (m : Mode) (csrc : CounterSource) (seg : Word) (s : State) :
    modeCause m csrc (segOf seg) s =
      if ¬ PgpBlockOk (modeNumber m) s then some .pgpBlockTooSmall
      else if ¬ SegOk (modeNumber m) seg s then some .badSegmentSize
      else if ¬ CounterGiven (modeNumber m) csrc then
        some (if modeNumber m = 7 then .counterRequired else .counterForbidden)
      else if ¬ EngineThere csrc s then some .counterShape
      else none := by
  have hctr : modeNumber m = 7 ↔ m = .ctr := modeNumber_eq_iff (k := .ctr)
  simp only [modeCause, pgpBlockOk_iff, segOk_iff, counterGiven_iff, EngineThere, hctr]
  -- The model asks the two lines of check 6 one after the other; at most one of them can fail.
  by_cases hm : m = .ctr
  · by_cases hc : csrc = .none <;> simp [hm, hc]
  · by_cases hc : csrc = .none <;> simp [hm, hc, Classical.not_imp]

open scoped Classical in
/-- Checks 0 to 6 in the words of rules R111 to R116, in their order. -/
theorem ctxNewCause_eq (mode : Byte) (csrc : CounterSource) (key iv : Bytes) (seg : Word) (s : State) :
    ctxNewCause mode csrc key iv seg s =
      if s.ctx.valid = true then some .slotBusy
      else if ¬ KeyOk key s then some .badKeyLength
      else if ¬ IvOk iv s then some .badIvLength
      else if ¬ ModeOk mode then some .unknownMode
      else if ¬ PgpBlockOk mode s then some .pgpBlockTooSmall
      else if ¬ SegOk mode seg s then some .badSegmentSize
      else if ¬ CounterGiven mode csrc then some (if mode = 7 then .counterRequired else .counterForbidden)
      else if ¬ EngineThere csrc s then some .counterShape
      else none := by
  have hiv : (iv.length ≠ 0 ∧ iv.length ≠ s.bs) ↔ ¬ IvOk iv s := not_or.symm
  simp only [ctxNewCause, keyLengthBad_iff, hiv]
  by_cases hmode : ModeOk mode
  · obtain ⟨m, rfl⟩ := modeOk_iff_exists.mp hmode
    simp only [modeOfNumber_modeNumber, modeCause_eq, hmode, not_true, if_false]
  · simp only [modeOfNumber_of_not_modeOk hmode, hmode, not_false_iff, if_true]

/-! ## The outcomes of `CTX_NEW` -/

section CtxNew
variable {mode : Byte} {csrc : CounterSource} {key iv : Bytes} {seg : Word} {s : State}

/-- A failing check is answered with its status word. -/
theorem exec_ctxNew_of_cause {c : Cause} {w : Word} (hc : ctxNewCause mode csrc key iv seg s = some c)
    (hw : statusWord (causeClass c) (causeCode c) = w) :
    exec (.ctxNew mode csrc key iv seg) s = .next (answered s w []) := by
  rw [← Encoding.raise_eq_answered_of_status hw]
  simp [exec, execCtxNew, hc]

/-- Check 7 (rule R117): the key is refused by `Init`. -/
theorem exec_ctxNew_of_init_none (hc : ctxNewCause mode csrc key iv seg s = none)
    (hi : cipherInit s.params.cipher key = none) :
    exec (.ctxNew mode csrc key iv seg) s = .next (answered s.noteInit 0x00001001 []) := by
  have hraise : raise .badKeyLength s.noteInit = answered s.noteInit 0x00001001 [] :=
    Encoding.raise_eq_answered_of_status rfl s.noteInit
  rw [← hraise]
  simp [exec, execCtxNew, hc, hi]

theorem exec_ctxNew_of_init_some {st : CipherState} (hc : ctxNewCause mode csrc key iv seg s = none)
    (hi : cipherInit s.params.cipher key = some st) :
    exec (.ctxNew mode csrc key iv seg) s =
      .next (answered (s.noteInit.withCtx (newContext mode csrc st iv seg s)) 0 []) := by
  simp [exec, execCtxNew, hc, hi, complete_eq_answered]

end CtxNew

/-- Settles O16: each clause is the branch of `ctxNewCause_eq` its premises select, the last one `Init`'s own. -/
theorem ctxNewReportsTheFirstFailingCheck : Obligations.CtxNewReportsTheFirstFailingCheck := by
  intro mode csrc key iv seg s
  have cause := ctxNewCause_eq mode csrc key iv seg s
  refine ⟨fun hv => ?busy, fun hv hkey => ?key, fun hv hkey hiv => ?iv, fun hv hkey hiv hmode => ?mode,
    fun hv hkey hiv hmode hpgp => ?pgp, fun hv hkey hiv hmode hpgp hseg => ?seg,
    fun hv hkey hiv hmode hpgp hseg hctr => ?counter, fun hv hkey hiv hmode hpgp hseg hctr heng => ?engine,
    fun hv hkey hiv hmode hpgp hseg hctr heng hinit => ?init⟩
  case busy => exact exec_ctxNew_of_cause (by simpa [hv] using cause) rfl
  case key => exact exec_ctxNew_of_cause (by simpa [hv, hkey] using cause) rfl
  case iv => exact exec_ctxNew_of_cause (by simpa [hv, hkey, hiv] using cause) rfl
  case mode => exact exec_ctxNew_of_cause (by simpa [hv, hkey, hiv, hmode] using cause) rfl
  case pgp => exact exec_ctxNew_of_cause (by simpa [hv, hkey, hiv, hmode, hpgp] using cause) rfl
  case seg => exact exec_ctxNew_of_cause (by simpa [hv, hkey, hiv, hmode, hpgp, hseg] using cause) rfl
  case counter =>
    refine exec_ctxNew_of_cause (c := if mode = 7 then .counterRequired else .counterForbidden) ?_ ?_
    · simp [cause, hv, hkey, hiv, hmode, hpgp, hseg, hctr]
    · split_ifs <;> rfl
  case engine =>
    exact exec_ctxNew_of_cause (by simpa [hv, hkey, hiv, hmode, hpgp, hseg, hctr, heng] using cause) rfl
  case init =>
    exact exec_ctxNew_of_init_none (by simpa [hv, hkey, hiv, hmode, hpgp, hseg, hctr, heng] using cause) hinit

theorem initialCount_modeNumber (m : Mode) (bs : Nat) :
    initialCount (some m) bs = if modeNumber m = 5 then 8 else if modeNumber m = 7 then bs else 0 := by
  cases m <;> rfl

/-- Settles O20: with every check passed the context written is `newContext`, whose fields are those of rule R118. -/
theorem ctxNewBuildsTheContext : Obligations.CtxNewBuildsTheContext := by
  intro mode m csrc key iv seg st0 s hv hkey hiv hmem hpgp hseg hctr heng hinit
  obtain rfl := mem_modeTable_iff.mp hmem
  have hcause : ctxNewCause (modeNumber m) csrc key iv seg s = none := by
    simp [ctxNewCause_eq, hv, hkey, hiv, modeOk_modeNumber, hpgp, hseg, hctr, heng]
  rw [exec_ctxNew_of_init_some hcause hinit, newContext, modeOfNumber_modeNumber, initialCount_modeNumber]
  rfl

/-! ## A refused command -/

/-- If the outcome is an error answered to a command taken at `s`, both slots and the external answers are as at
`s` (rule R244, its first two rows). -/
def FailsClean (s : State) (out : Out) : Prop :=
  ∀ t, out = .next t → AnsweredError s t → t.ctx = s.ctx ∧ t.gen = s.gen ∧ t.replies = s.replies

theorem failsClean_raise (c : Cause) {s u : State} (hctx : u.ctx = s.ctx) (hgen : u.gen = s.gen)
    (hreplies : u.replies = s.replies) : FailsClean s (.next (raise c u)) := by
  rintro _ ⟨⟩ _
  exact ⟨hctx, hgen, hreplies⟩

/-- An `OK` answer is no error, whatever the command wrote. -/
theorem failsClean_complete {s u : State} (result : Bytes) (hd : u.dataOut = s.dataOut := by rfl) :
    FailsClean s (.next (complete result u)) := by
  rintro _ ⟨⟩ ⟨_, r, hr, hne⟩
  have hok : r = { status := 0, result := result } := by simpa [hd, eq_comm] using hr
  exact absurd (congrArg Response.status hok) hne

/-- A check that raises before anything is written. -/
theorem FailsClean.guard {p : Prop} [Decidable p] {c : Cause} {s : State} {out : Out} (h : FailsClean s out) :
    FailsClean s (if p then .next (raise c s) else out) := by
  split_ifs
  · exact failsClean_raise c rfl rfl rfl
  · exact h

theorem execCtxNew_failsClean (mode : Byte) (csrc : CounterSource) (key iv : Bytes) (seg : Word) (s : State) :
    FailsClean s (execCtxNew mode csrc key iv seg s) := by
  unfold execCtxNew
  split
  · exact failsClean_raise _ rfl rfl rfl
  · split
    · exact failsClean_raise _ rfl rfl rfl
    · exact failsClean_complete []

/-- A loop over units sends nothing before the `OK` it ends with. -/
theorem finishUnits_failsClean {α : Type} {unit : State → α → State × Bytes} (h : Responses.UnitSilent unit)
    (us : List α) {s u : State} (hd : u.dataOut = s.dataOut) :
    FailsClean s (.next (finishRun (runUnits unit us u))) :=
  failsClean_complete _
    (runUnits_keeps (fun v => v.dataOut = s.dataOut) unit us (fun v x _ hv => (h v x).trans hv) u hd)

/-- Only the byte loop of CTR can fail in the data phase. -/
theorem variant_failsClean {variant : Mode → State → State}
    (hvar : variant = encryptVariant ∨ variant = decryptVariant) {m : Mode} (hm : m ≠ .ctr) {s u : State}
    (hd : u.dataOut = s.dataOut) : FailsClean s (.next (variant m u)) := by
  rcases hvar with rfl | rfl
  · cases m with
    | pgp => exact finishUnits_failsClean Responses.pgpEncByte_silent _ hd
    | ctr => exact absurd rfl hm
    | _ => exact finishUnits_failsClean (fun _ _ => rfl) _ hd
  · cases m with
    | pgp => exact finishUnits_failsClean Responses.pgpDecByte_silent _ hd
    | ctr => exact absurd rfl hm
    | _ => exact finishUnits_failsClean (fun _ _ => rfl) _ hd

theorem dataPhase_failsClean {variant : Mode → State → State}
    (hvar : variant = encryptVariant ∨ variant = decryptVariant) (buf : Bytes) {s : State}
    (hne : s.ctx.mode ≠ some .ctr) : FailsClean s (dataPhase variant buf s) := by
  intro t h
  rcases dataPhase_cases _ _ _ _ h with ⟨_, rfl⟩ | ⟨_, c, _, rfl⟩ | ⟨_, _, _, rfl⟩ | ⟨_, _, _, m, hm, rfl⟩
  · exact failsClean_complete [] rfl _ rfl
  · exact failsClean_raise c rfl rfl rfl _ rfl
  · exact failsClean_raise _ rfl rfl rfl _ rfl
  · exact variant_failsClean (u := allocate buf s) hvar (fun hctr => hne (hctr ▸ hm)) rfl _ rfl

/-- Settles O14: every check raises before its command writes, and outside CTR nothing fails after the checks. -/
theorem failedCommandOutsideCtrLeavesBothSlots : Obligations.FailedCommandOutsideCtrLeavesBothSlots := by
  intro i s t h herr hmode
  suffices hclean : FailsClean s (exec i s) from hclean t h herr
  cases i with
  | ctxNew mode csrc key iv seg => exact execCtxNew_failsClean mode csrc key iv seg s
  | encrypt buf => exact .guard (dataPhase_failsClean (.inl rfl) buf (hmode rfl))
  | decrypt buf => exact .guard (.guard (dataPhase_failsClean (.inr rfl) buf (hmode rfl)))
  | sync | genInvoke | genNewBe | genNewLe => exact .guard (.guard (failsClean_complete _))
  | setPrf | ctxDestroy | genDestroy | getIv | getMode | getBlockSize | getKeySize | genNextValue | genGetCarry =>
    exact .guard (failsClean_complete _)

end Sys2Proof.Construction
end

section
/-! PROOFS of O18, O23, O44: what the front end of a context command answers before any data phase, one lemma per
check (`noContext_of_empty`, `exec_decrypt_of_prfMode`, `dataPhase_nil`). -/

open Sys2Proof Sys2Proof.Machine Sys2Proof.Spec

namespace Sys2Proof.FrontEnd

/-- The first check of every context command, on an empty slot (rule R141). -/
theorem noContext_of_empty {s : State} (hv : s.ctx.valid = false) (out : Out) :
    (if s.ctx.valid = false then .next (raise .noContext s) else out) = .next (answered s 0x00000201 []) :=
  (if_pos hv).trans (congrArg _ (Encoding.raise_eq_answered_of_status rfl s))

/-- Settles O18: the meaning of each of the nine begins with this check. -/
theorem contextCommandsNeedAContext : Obligations.ContextCommandsNeedAContext := by
  intro s buf v hv
  and_intros <;> exact noContext_of_empty hv _

theorem exec_crypt_of_empty {s : State} (hv : s.ctx.valid = false) (dec : Bool) (buf : Bytes) :
    exec (crypt dec buf) s = .next (answered s 0x00000201 []) := by
  cases dec <;> exact noContext_of_empty hv _

theorem exec_decrypt_of_prfMode {s : State} (hv : s.ctx.valid = true) (hp : s.ctx.prfMode = true) (buf : Bytes) :
    exec (.decrypt buf) s = .next (answered s 0x00002001 []) := by
  have hraise : raise .decryptDisabled s = answered s 0x00002001 [] := Encoding.raise_eq_answered_of_status rfl s
  rw [← hraise]
  simp [exec, execDecrypt, hv, hp]

/-- Settles O23. -/
theorem prfModeDisablesDecrypt : Obligations.PrfModeDisablesDecrypt :=
  fun _ buf hv hp => exec_decrypt_of_prfMode hv hp buf

/-- The empty buffer is answered before the length check, the allocation and the dispatch (rule R134). -/
theorem dataPhase_nil (variant : Mode → State → State) (s : State) :
    dataPhase variant [] s = .next (answered s 0 []) :=
  (if_pos rfl).trans (congrArg _ (complete_eq_answered [] s))

/-- Settles O44. -/
theorem emptyBufferTouchesNothing : Obligations.EmptyBufferTouchesNothing := by
  intro s hv
  rw [RoundTrip.exec_encrypt_valid hv, dataPhase_nil]
  refine ⟨rfl, fun hp => ?_⟩
  rw [RoundTrip.exec_decrypt_valid hv hp, dataPhase_nil]

end Sys2Proof.FrontEnd
end

section
/-! PROOF of O9. A command fails to answer a next state only on a valid context without a mode
(`exec_answersNext`), and a step besides only in a transient stage; the invariant rules both out. -/

open Sys2Proof Sys2Proof.Machine Sys2Proof.Spec Sys2Proof.FrontEnd

namespace Sys2Proof.NoStop

/-- The outcome is a next state, neither a fault nor a refusal. -/
def AnswersNext (out : Out) : Prop := ∃ t, out = .next t

theorem answersNext_next (t : State) : AnswersNext (.next t) := ⟨t, rfl⟩

/-- A check that raises is no stop. -/
theorem AnswersNext.guard {p : Prop} [Decidable p] {t : State} {out : Out} (h : AnswersNext out) :
    AnswersNext (if p then .next t else out) := by
  split_ifs
  · exact answersNext_next t
  · exact h

/-- The data phase refuses only a context without a mode (rule R136). -/
theorem dataPhase_answersNext {s : State} (hm : s.ctx.mode ≠ none) (variant : Mode → State → State) (buf : Bytes) :
    AnswersNext (dataPhase variant buf s) := by
  obtain ⟨m, hm⟩ := Option.ne_none_iff_exists'.mp hm
  refine .guard ?_
  split
  · exact answersNext_next _
  · rw [hm]
    exact .guard (answersNext_next _)

theorem execCtxNew_answersNext (mode : Byte) (csrc : CounterSource) (key iv : Bytes) (seg : Word) (s : State) :
    AnswersNext (execCtxNew mode csrc key iv seg s) := by
  unfold execCtxNew
  split
  · exact answersNext_next _
  · split <;> exact answersNext_next _

theorem exec_crypt_answersNext {s : State} (hmode : s.ctx.valid = true → s.ctx.mode ≠ none) (dec : Bool)
    (buf : Bytes) : AnswersNext (exec (crypt dec buf) s) := by
  cases hv : s.ctx.valid with
  | false => exact ⟨_, exec_crypt_of_empty hv dec buf⟩
  | true =>
    by_cases hp : dec = true → s.ctx.prfMode = false
    · exact exec_crypt hv hp buf ▸ dataPhase_answersNext (hmode hv) _ buf
    · obtain ⟨rfl, hprf⟩ := Classical.not_imp.mp hp
      exact ⟨_, exec_decrypt_of_prfMode hv (by simpa using hprf) buf⟩

theorem exec_answersNext {s : State} (hmode : s.ctx.valid = true → s.ctx.mode ≠ none) (i : Instr) :
    AnswersNext (exec i s) := by
  cases i with
  | ctxNew mode csrc key iv seg => exact execCtxNew_answersNext mode csrc key iv seg s
  | encrypt buf => exact exec_crypt_answersNext hmode false buf
  | decrypt buf => exact exec_crypt_answersNext hmode true buf
  | sync | genInvoke | genNewBe | genNewLe => exact .guard (.guard (answersNext_next _))
  | setPrf | ctxDestroy | genDestroy | getIv | getMode | getBlockSize | getKeySize | genNextValue | genGetCarry =>
    exact .guard (answersNext_next _)

/-- The stages of the fault, and a valid context without a mode, are outside the invariant. -/
theorem step_answersNext {s : State} (hs : s.Inv) : AnswersNext (step s) := by
  rcases hs.settled with hst | hst
  · cases hport : s.cmdPort with
    | nil => exact ⟨s, by simp [step, hst, hport]⟩
    | cons tr rest =>
      rw [Encoding.step_idle hst hport]
      rcases runTransaction_cases tr (accept rest s) with ⟨_, _, he⟩ | ⟨i, _, he⟩ <;> rw [he]
      · exact answersNext_next _
      · exact exec_answersNext (s := accept rest s) hs.slots.ctx.hasMode i
  · exact ⟨resumeRefill s, by simp [step, hst]⟩

/-- Settles O9, by induction on the number of steps: each answers a next state, which meets the invariant again. -/
theorem invariantStatesNeverStop : Obligations.InvariantStatesNeverStop := by
  intro s k hs
  induction k generalizing s with
  | zero => trivial
  | succ k ih =>
    obtain ⟨t, ht⟩ := step_answersNext hs
    exact ⟨t, ht, ih t (Slots.everyStepKeepsTheInvariant s t hs ht)⟩

end Sys2Proof.NoStop
end

section
/-! PROOF of O46. A data phase reads neither the sequencing state nor `OUT` nor the responses sent: with those of
another state (`rephase`) it gets through a buffer alike (`Passes`). So the data phase over `a ‖ b`, once past `a`,
stands where the second of two commands begins, but for what no unit and no byte reads. `Piecewise` says this of one
mode and direction, through `of_units` for the loops over units and `ctr_piecewise` for the byte loop of CTR. -/

open Sys2Proof Sys2Proof.Machine Sys2Proof.Spec Sys2Proof.FrontEnd Sys2Proof.Slots

namespace Sys2Proof.Splitting

/-! ## What a data phase does not read -/

/-- `s` with the sequencing state, the buffers and the responses sent of `f`. -/
def rephase (f s : State) : State :=
  { s with stage := f.stage, pos := f.pos, inBuf := f.inBuf, outBuf := f.outBuf, dataOut := f.dataOut }

@[simp] theorem rephase_params (f s : State) : (rephase f s).params = s.params := rfl
@[simp] theorem rephase_ctx (f s : State) : (rephase f s).ctx = s.ctx := rfl
@[simp] theorem rephase_gen (f s : State) : (rephase f s).gen = s.gen := rfl
@[simp] theorem rephase_replies (f s : State) : (rephase f s).replies = s.replies := rfl
@[simp] theorem rephase_bs (f s : State) : (rephase f s).bs = s.bs := rfl
@[simp] theorem rephase_outBuf (f s : State) : (rephase f s).outBuf = f.outBuf := rfl
@[simp] theorem rephase_dataOut (f s : State) : (rephase f s).dataOut = f.dataOut := rfl

theorem allocate_eq_rephase (buf : Bytes) (s : State) : allocate buf s = rephase (allocate buf s) s := rfl

@[simp] theorem writeOut_nil (s : State) : writeOut [] s = s := by simp [writeOut]

theorem writeOut_append (v w : Bytes) (s : State) : writeOut w (writeOut v s) = writeOut (v ++ w) s := by
  simp [writeOut, Nat.add_assoc]

/-- From `s` the loop gets through `a`, writing `out`, to `w`: whatever it was begun with and whatever follows. -/
def Passes (loop : Bytes → State → State) (a out : Bytes) (s w : State) : Prop :=
  ∀ f rest, loop (a ++ rest) (rephase f s) = loop rest (rephase (writeOut out f) w)

/-- What is left of a buffer at its end is its answer. -/
theorem Passes.finishes {loop : Bytes → State → State} {a out : Bytes} {s w : State} (h : Passes loop a out s w)
    (hend : ∀ v, loop [] v = finishRun v) (f : State) :
    loop a (rephase f s) = finishRun (rephase (writeOut out f) w) := by
  have hnil := h f []
  rwa [List.append_nil, hend] at hnil

/-! ## The loop over units -/

/-- A unit does not read what `rephase` exchanges, and leaves it alone. -/
def UnitRephases {α : Type} (unit : State → α → State × Bytes) : Prop :=
  ∀ f s x, unit (rephase f s) x = (rephase f (unit s x).1, (unit s x).2)

theorem runUnits_rephase {α : Type} {unit : State → α → State × Bytes} (hu : UnitRephases unit) (us : List α)
    (s : State) :
    ∃ out, ∀ f, runUnits unit us (rephase f s) = rephase (writeOut out f) (runUnits unit us s) := by
  induction us generalizing s with
  | nil => exact ⟨[], fun f => by rw [writeOut_nil]; rfl⟩
  | cons x us ih =>
    obtain ⟨out, hout⟩ := ih (writeOut (unit s x).2 (unit s x).1)
    refine ⟨(unit s x).2 ++ out, fun f => ?_⟩
    calc runUnits unit (x :: us) (rephase f s)
        = runUnits unit us (writeOut (unit s x).2 (rephase f (unit s x).1)) := by rw [runUnits_cons, hu]
      _ = rephase (writeOut out (writeOut (unit s x).2 f)) (runUnits unit (x :: us) s) :=
          hout (writeOut (unit s x).2 f)
      _ = rephase (writeOut ((unit s x).2 ++ out) f) (runUnits unit (x :: us) s) := by rw [writeOut_append]

theorem ecbEncBlock_rephases : UnitRephases ecbEncBlock := fun _ _ _ => rfl
theorem ecbDecBlock_rephases : UnitRephases ecbDecBlock := fun _ _ _ => rfl
theorem cbcEncBlock_rephases : UnitRephases cbcEncBlock := fun _ _ _ => rfl
theorem cbcDecBlock_rephases : UnitRephases cbcDecBlock := fun _ _ _ => rfl
theorem cfbEncSegment_rephases : UnitRephases cfbEncSegment := fun _ _ _ => rfl
theorem cfbDecSegment_rephases : UnitRephases cfbDecSegment := fun _ _ _ => rfl
theorem ofbBlock_rephases : UnitRephases ofbBlock := fun _ _ _ => rfl

theorem pgpReady_rephase (f s : State) : pgpReady (rephase f s) = rephase f (pgpReady s) := by
  unfold pgpReady
  rw [rephase_ctx, rephase_bs]
  split_ifs <;> rfl

theorem pgpEncByte_rephases : UnitRephases pgpEncByte := fun f s b =>
  congrArg (pgpEncReady · b) (pgpReady_rephase f s)

theorem pgpDecByte_rephases : UnitRephases pgpDecByte := fun f s b =>
  congrArg (pgpDecReady · b) (pgpReady_rephase f s)

/-! ## The byte loop of CTR -/

/-- The outcome of a refill, rephased; a wait sets the stage itself. -/
def rephaseRefill (f : State) : Refill → Refill
  | .filled s => .filled (rephase f s)
  | .raised cls cause s => .raised cls cause (rephase f s)
  | .waiting s => .waiting (rephase (f.withStage .refillWait) s)

theorem acceptReply_rephase (f : State) (r : CounterReply) (s : State) :
    acceptReply r (rephase f s) = rephaseRefill f (acceptReply r s) := by
  unfold acceptReply
  rw [rephase_bs]
  split_ifs <;> rfl

theorem externalRefill_rephase (f s : State) :
    externalRefill (rephase f s) = rephaseRefill f (externalRefill s) := by
  unfold externalRefill
  rw [rephase_replies]
  cases s.replies with
  | nil => rfl
  | cons r rest => exact acceptReply_rephase f r (s.noteCounter.withReplies rest)

theorem refillCtr_rephase (f s : State) : refillCtr (rephase f s) = rephaseRefill f (refillCtr s) := by
  unfold refillCtr shortcutRefill genericRefill
  rw [rephase_ctx, rephase_gen, rephase_bs]
  split_ifs
  · exact externalRefill_rephase f s
  all_goals rfl

theorem ctrReady_rephase (f : State) {s u : State} (h : ctrReady s = .filled u) :
    ctrReady (rephase f s) = .filled (rephase f u) := by
  have hstart (r : Refill) : (rephaseRefill f r).startBlock = rephaseRefill f r.startBlock := by
    cases r <;> rfl
  have hready : ctrReady (rephase f s) = rephaseRefill f (ctrReady s) := by
    unfold ctrReady
    rw [rephase_ctx, rephase_bs, refillCtr_rephase, hstart]
    split_ifs <;> rfl
  rw [hready, h]
  rfl

/-- A byte loop that ends in success passes its buffer: no refill raises or waits. -/
theorem ctrRun_passes {a x : Bytes} {s u : State} (hw : u.gen.buf.length = genWidth u.gen)
    (hd : u.dataOut = s.dataOut) (hok : AnsweredOk s (ctrRun a u) x) :
    ∃ out w, x = u.outBuf ++ out ∧ Passes ctrRun a out u w := by
  induction a generalizing u with
  | nil =>
    refine ⟨[], u, ?_, fun f rest => by rw [writeOut_nil]; rfl⟩
    rw [List.append_nil]
    exact ((RoundTrip.answeredOk_finishRun hd).mp hok).symm
  | cons b a ih =>
    cases hr : ctrReady u with
    | filled v =>
      rw [ctrRun_filled b a u v hr] at hok
      obtain ⟨hwv, hdv, hov⟩ := RoundTrip.ctrReady_filled hw hr
      obtain ⟨out, w, hx, hpass⟩ := ih (u := ctrByte b v) hwv (hdv.trans hd) hok
      refine ⟨(b ^^^ byteAt v.ctx.iv v.ctx.count) :: out, w, ?_, fun f rest => ?_⟩
      · rw [hx, ← hov]
        exact List.append_assoc ..
      · calc ctrRun (b :: (a ++ rest)) (rephase f u)
            = ctrRun (a ++ rest) (ctrByte b (rephase f v)) := ctrRun_filled _ _ _ _ (ctrReady_rephase f hr)
          _ = ctrRun rest (rephase (writeOut out (writeOut [b ^^^ byteAt v.ctx.iv v.ctx.count] f)) w) :=
              hpass (writeOut [b ^^^ byteAt v.ctx.iv v.ctx.count] f) rest
          _ = ctrRun rest (rephase (writeOut ((b ^^^ byteAt v.ctx.iv v.ctx.count) :: out) f) w) := by
              rw [writeOut_append]; rfl
    | raised cls cause v =>
      rw [ctrRun_raised b a u v cls cause hr] at hok
      exact absurd hok (RoundTrip.not_answeredOk_of_raised hw hd hr)
    | waiting v =>
      rw [ctrRun_waiting b a u v hr] at hok
      exact absurd hok (RoundTrip.not_answeredOk_of_waiting hw hr)

/-! ## The length check over two buffers -/

theorem lengthCause_eq_none_iff {c : Context} {bs len : Nat} : lengthCause c bs len = none ↔
    (BlockMode c → len % bs = 0) ∧ (c.mode = some .cfb → len % segmentBytes c.segmentSize = 0) := by
  refine ⟨fun h => ⟨fun hm => ?_, fun hm => ?_⟩, fun h => lengthCause_eq_none h.1 h.2⟩
  · simpa [lengthCause_of_blockMode hm] using h
  · simpa [lengthCause_of_cfb hm] using h

theorem lengthCause_zero (c : Context) (bs : Nat) : lengthCause c bs 0 = none :=
  lengthCause_eq_none (fun _ => Nat.zero_mod _) fun _ => Nat.zero_mod _

theorem lengthCause_append {c : Context} {bs : Nat} {a b : Bytes} (ha : lengthCause c bs a.length = none)
    (hb : lengthCause c bs b.length = none) : lengthCause c bs (a ++ b).length = none := by
  have whole {n : Nat} (ha : a.length % n = 0) (hb : b.length % n = 0) : (a ++ b).length % n = 0 := by
    simp [Nat.add_mod, ha, hb]
  obtain ⟨hablock, hacfb⟩ := lengthCause_eq_none_iff.mp ha
  obtain ⟨hbblock, hbcfb⟩ := lengthCause_eq_none_iff.mp hb
  exact lengthCause_eq_none (fun hm => whole (hablock hm) (hbblock hm)) fun hm => whole (hacfb hm) (hbcfb hm)

/-- The check reads only what a data phase keeps. -/
theorem lengthCause_of_keeps {s t : State} (h : Keeps s t) (len : Nat) :
    lengthCause t.ctx t.bs len = lengthCause s.ctx s.bs len := by
  obtain ⟨_, hmode, _, hseg, _⟩ := identity_eq_iff.mp h.identity
  simp only [lengthCause, hmode, hseg, h.bs]

/-! ## Every mode -/

/-- In the block of `s`, the data phase of one mode and direction is a loop over its buffer, which passes every
buffer of whole units that it answers with success. -/
structure Piecewise (s : State) (variant : State → State) (loop : Bytes → State → State) : Prop where
  runs : ∀ v, Keeps s v → variant v = loop v.inBuf v
  ends : ∀ v, loop [] v = finishRun v
  passes : ∀ v a x, v.gen.buf.length = genWidth v.gen → lengthCause s.ctx s.bs a.length = none →
    AnsweredOk v (loop a (allocate a v)) x → ∃ w, Passes loop a x v w

/-- The modes that loop over the units into which `cut` cuts the buffer. -/
theorem Piecewise.of_units {α : Type} {s : State} {variant : State → State} {unit : State → α → State × Bytes}
    {cut : Bytes → List α} (hu : UnitRephases unit)
    (hrun : ∀ v, Keeps s v → variant v = finishRun (runUnits unit (cut v.inBuf) v)) (hnil : cut [] = [])
    (hcut : ∀ a b, lengthCause s.ctx s.bs a.length = none → cut (a ++ b) = cut a ++ cut b) :
    Piecewise s variant fun buf v => finishRun (runUnits unit (cut buf) v) where
  runs := hrun
  ends v := by rw [hnil, runUnits_nil]
  passes v a x _ hlen hok := by
    obtain ⟨out, hout⟩ := runUnits_rephase hu (cut a) v
    have hx : out = x := by
      rw [allocate_eq_rephase, hout] at hok
      exact (RoundTrip.answeredOk_finishRun rfl).mp hok
    subst hx
    refine ⟨runUnits unit (cut a) v, fun f rest => ?_⟩
    beta_reduce
    rw [hcut a rest hlen, runUnits_append, hout]

/-- The modes whose units have the size `size`, in bytes. -/
theorem Piecewise.of_blocks {s : State} {variant : State → State} {unit : State → Bytes → State × Bytes}
    {size : State → Nat} (hu : UnitRephases unit)
    (hrun : ∀ v, variant v = finishRun (runUnits unit (units (size v) v.inBuf) v))
    (hsize : ∀ v, Keeps s v → size v = size s) (hpos : 0 < size s)
    (hwhole : ∀ len, lengthCause s.ctx s.bs len = none → len % size s = 0) :
    Piecewise s variant fun buf v => finishRun (runUnits unit (units (size s) buf) v) := by
  refine .of_units hu (fun v hk => ?_) ?_ fun a b hlen => units_append _ a b hpos (hwhole _ hlen)
  · rw [hrun, hsize v hk]
  · simp [units, takeUnits]

theorem ctr_piecewise (s : State) : Piecewise s (fun v => ctrRun v.inBuf v) ctrRun where
  runs _ _ := rfl
  ends := ctrRun_nil
  passes v a x hw _ hok := by
    obtain ⟨out, w, hx, hpass⟩ := ctrRun_passes (u := allocate a v) hw rfl hok
    rw [allocate_outBuf, List.nil_append] at hx
    exact ⟨w, hx ▸ hpass⟩

theorem cryptVariant_piecewise {m : Mode} {s : State} (hs : SlotsInv s) (hv : s.ctx.valid = true)
    (hm : s.ctx.mode = some m) (dec : Bool) : ∃ loop, Piecewise s (cryptVariant dec m) loop := by
  have hbs (v : State) (hk : Keeps s v) : v.bs = s.bs := hk.bs
  have hblock (h : BlockMode s.ctx) (len : Nat) (hlen : lengthCause s.ctx s.bs len = none) : len % s.bs = 0 :=
    (lengthCause_eq_none_iff.mp hlen).1 h
  cases m with
  | ecb =>
    have hwhole := hblock (.inl hm)
    cases dec with
    | false => exact ⟨_, .of_blocks ecbEncBlock_rephases (fun _ => rfl) hbs hs.blockSizePos hwhole⟩
    | true => exact ⟨_, .of_blocks ecbDecBlock_rephases (fun _ => rfl) hbs hs.blockSizePos hwhole⟩
  | cbc =>
    have hwhole := hblock (.inr (.inl hm))
    cases dec with
    | false => exact ⟨_, .of_blocks cbcEncBlock_rephases (fun _ => rfl) hbs hs.blockSizePos hwhole⟩
    | true => exact ⟨_, .of_blocks cbcDecBlock_rephases (fun _ => rfl) hbs hs.blockSizePos hwhole⟩
  | ofb =>
    have hwhole := hblock (.inr (.inr hm))
    cases dec <;> exact ⟨_, .of_blocks ofbBlock_rephases (fun _ => rfl) hbs hs.blockSizePos hwhole⟩
  | cfb =>
    have hseg (v : State) (hk : Keeps s v) : segmentBytes v.ctx.segmentSize = segmentBytes s.ctx.segmentSize := by
      obtain ⟨_, _, _, hseg, _⟩ := identity_eq_iff.mp hk.identity
      rw [hseg]
    have hpos := (RoundTrip.segmentBytes_bounds (hs.ctx.segmentOk hv hm)).1
    have hwhole (len : Nat) (hlen : lengthCause s.ctx s.bs len = none) :
        len % segmentBytes s.ctx.segmentSize = 0 := (lengthCause_eq_none_iff.mp hlen).2 hm
    cases dec with
    | false => exact ⟨_, .of_blocks cfbEncSegment_rephases (fun _ => rfl) hseg hpos hwhole⟩
    | true => exact ⟨_, .of_blocks cfbDecSegment_rephases (fun _ => rfl) hseg hpos hwhole⟩
  | pgp =>
    cases dec with
    | false => exact ⟨_, .of_units (cut := id) pgpEncByte_rephases (fun _ _ => rfl) rfl fun _ _ _ => rfl⟩
    | true => exact ⟨_, .of_units (cut := id) pgpDecByte_rephases (fun _ _ => rfl) rfl fun _ _ _ => rfl⟩
  | ctr => cases dec <;> exact ⟨_, ctr_piecewise s⟩

theorem cryptVariant_keeps (dec : Bool) (m : Mode) (s : State) : Keeps s (cryptVariant dec m s) := by
  cases dec with
  | false => exact (variant_keeps (.inl rfl) m s).1
  | true => exact (variant_keeps (.inr rfl) m s).1

/-! ## The command -/

/-- Only a valid context that may run the direction answers `OK`. -/
theorem ready_of_answeredOk {dec : Bool} {buf x : Bytes} {s t : State} (h : exec (crypt dec buf) s = .next t)
    (hok : AnsweredOk s t x) : s.ctx.valid = true ∧ (dec = true → s.ctx.prfMode = false) := by
  have refused {w : Word} (hw : w ≠ 0) : ¬ AnsweredOk s (answered s w []) x := fun ho =>
    hw ((RoundTrip.answeredOk_answered rfl).mp ho).1
  cases hv : s.ctx.valid with
  | false =>
    cases (exec_crypt_of_empty hv dec buf).symm.trans h
    exact absurd hok (refused (by decide))
  | true =>
    refine ⟨rfl, ?_⟩
    rintro rfl
    by_contra hp
    cases (exec_decrypt_of_prfMode hv (by simpa using hp) buf).symm.trans h
    exact absurd hok (refused (by decide))

/-- The answer to the empty buffer is that of a data phase with nothing to do (rule R134). -/
theorem finishRun_allocate_nil (s : State) : finishRun (allocate [] s) = complete [] s := rfl

section Command
variable {dec : Bool} {m : Mode} {buf x : Bytes} {r s t : State} {loop : Bytes → State → State}

/-- A command that succeeds has passed the length check and run its loop, over the empty buffer too. -/
theorem Piecewise.loop_of_ok (h : Piecewise r (cryptVariant dec m) loop) (hk : Keeps r s)
    (hm : s.ctx.mode = some m) (hexec : exec (crypt dec buf) s = .next t) (hok : AnsweredOk s t x) :
    lengthCause s.ctx s.bs buf.length = none ∧ t = loop buf (allocate buf s) := by
  obtain ⟨hv, hp⟩ := ready_of_answeredOk hexec hok
  rw [exec_crypt hv hp] at hexec
  rcases dataPhase_cases _ _ _ _ hexec with
    ⟨rfl, rfl⟩ | ⟨_, c, _, rfl⟩ | ⟨_, _, _, rfl⟩ | ⟨_, hlen, _, k, hk', rfl⟩
  · exact ⟨lengthCause_zero _ _, by rw [h.ends, finishRun_allocate_nil]⟩
  · exact absurd hok (RoundTrip.not_answeredOk_raise c s x)
  · exact absurd hok (RoundTrip.not_answeredOk_raise _ s x)
  · obtain rfl : m = k := Option.some.inj (hm.symm.trans hk')
    exact ⟨hlen, h.runs _ (hk.trans (allocate_keeps buf s))⟩

/-- A command that passes its checks runs its loop, over the empty buffer too. -/
theorem Piecewise.exec_eq (h : Piecewise s (cryptVariant dec m) loop) (hm : s.ctx.mode = some m)
    (hv : s.ctx.valid = true) (hp : dec = true → s.ctx.prfMode = false)
    (hlen : lengthCause s.ctx s.bs buf.length = none)
    (hfits : ∀ cap, s.params.bufCap = some cap → buf.length ≤ cap) :
    exec (crypt dec buf) s = .next (loop buf (allocate buf s)) := by
  rw [exec_crypt hv hp]
  by_cases hb : buf = []
  · subst hb
    rw [dataPhase_nil, h.ends, finishRun_allocate_nil, complete_eq_answered]
  · have halloc : allocFails s.params.bufCap buf.length = false := by
      cases hcap : s.params.bufCap with
      | none => rfl
      | some cap => simpa [allocFails] using hfits cap hcap
    rw [dataPhase_runs _ buf s m hb hm hlen halloc, h.runs _ (allocate_keeps buf s)]
    rfl

end Command

/-- The loop over `a ‖ b` against the loop over `a` and then, from where that ended, over `b`. -/
theorem loop_append {loop : Bytes → State → State} (hend : ∀ v, loop [] v = finishRun v) {s w z : State}
    {a b x y : Bytes} (ha : Passes loop a x s w)
    (hb : Passes loop b y (loop a (allocate a s)) z) :
    loop (a ++ b) (allocate (a ++ b) s) =
      { loop b (allocate b (loop a (allocate a s))) with
        dataOut := s.dataOut ++ [{ status := 0, result := x ++ y }] } := by
  have hta : loop a (allocate a s) = finishRun (rephase (writeOut x (allocate a s)) w) :=
    ha.finishes hend (allocate a s)
  have hwb (f : State) : loop b (rephase f w) = finishRun (rephase (writeOut y f) z) := by
    rw [hta] at hb
    exact hb.finishes hend f
  have htb : loop b (allocate b (loop a (allocate a s))) =
      finishRun (rephase (writeOut y (allocate b (loop a (allocate a s)))) z) := by
    rw [hta]
    exact hwb (allocate b (finishRun (rephase (writeOut x (allocate a s)) w)))
  calc loop (a ++ b) (allocate (a ++ b) s)
      = loop b (rephase (writeOut x (allocate (a ++ b) s)) w) := ha (allocate (a ++ b) s) b
    _ = finishRun (rephase (writeOut y (writeOut x (allocate (a ++ b) s))) z) := hwb _
    _ = _ := by
      rw [htb, finishRun, complete_eq_answered]
      rfl

/-- Settles O46: both commands ran the loop of the mode, and past `a` the loop over `a ‖ b` does what the second
command did. -/
theorem splitMessageGivesTheSameResult : Obligations.SplitMessageGivesTheSameResult := by
  intro dec s t u a b x y hs hfits hexecA hokA hexecB hokB
  obtain ⟨hv, hp⟩ := ready_of_answeredOk hexecA hokA
  obtain ⟨m, hm⟩ := Option.ne_none_iff_exists'.mp (hs.ctx.hasMode hv)
  obtain ⟨loop, hpiece⟩ := cryptVariant_piecewise hs hv hm dec
  obtain ⟨hlenA, rfl⟩ := hpiece.loop_of_ok (.refl s) hm hexecA hokA
  have hkeeps : Keeps s (loop a (allocate a s)) := by
    have hk := (allocate_keeps a s).trans (cryptVariant_keeps dec m _)
    rwa [hpiece.runs _ (allocate_keeps a s)] at hk
  obtain ⟨_, hmode, _⟩ := identity_eq_iff.mp hkeeps.identity
  obtain ⟨hlenB, rfl⟩ := hpiece.loop_of_ok hkeeps (hmode.trans hm) hexecB hokB
  rw [lengthCause_of_keeps hkeeps] at hlenB
  have hslots : SlotsInv (loop a (allocate a s)) := (exec_inv hs hexecA).slots
  obtain ⟨_, hpassA⟩ := hpiece.passes s a x hs.gen.bufLength hlenA hokA
  obtain ⟨_, hpassB⟩ := hpiece.passes _ b y hslots.gen.bufLength hlenB hokB
  rw [hpiece.exec_eq hm hv hp (lengthCause_append hlenA hlenB) hfits, loop_append hpiece.ends hpassA hpassB]

end Sys2Proof.Splitting
end

section
/-! PROOF of O26 to O30. A loop over units is described by the state `reg i` before unit `i` and the bytes `out i`
which that unit answers (`Traces`); the command then ends in the `reg` after the last unit and answers the units joined
(`exec_crypt_of_traces`). ECB and CBC write three registers and two counts only (`withRegisters`), so that each unit of
theirs is one equation and each trace a closed form. O30 is read off the closed form of O29: plaintext block `j` depends
on the ciphertext blocks `j` and `j - 1` alone. -/

open Sys2Proof Sys2Proof.Machine Sys2Proof.Spec Sys2Proof.FrontEnd Sys2Proof.Splitting

namespace Sys2Proof.BlockModes

/-! ## Units of a buffer -/

theorem unitAt_length {u i : Nat} {b : Bytes} (h : i < b.length / u) : (unitAt u i b).length = u := by
  have hle : (i + 1) * u ≤ b.length := (Nat.mul_le_mul_right u h).trans (Nat.div_mul_le_self _ _)
  rw [unitAt, List.length_take, List.length_drop]
  rw [Nat.succ_mul] at hle
  omega

/-- The units into which a loop cuts its buffer are those the statements name. -/
theorem units_eq_map_unitAt (u : Nat) (b : Bytes) : units u b = (List.range (b.length / u)).map (unitAt u · b) := by
  refine List.ext_getElem? fun i => ?_
  by_cases hi : i < b.length / u
  · rw [units, takeUnits_getElem? u _ i b hi, List.getElem?_map, List.getElem?_range hi]
    rfl
  · rw [List.getElem?_eq_none, List.getElem?_eq_none] <;> simpa [units] using hi

/-- The first `n` of the units `f 0`, `f 1`, ..., one after the other. -/
def joined (f : Nat → Bytes) (n : Nat) : Bytes := (List.range n).flatMap f

theorem joined_succ (f : Nat → Bytes) (n : Nat) : joined f (n + 1) = joined f n ++ f n := by
  simp [joined, List.range_succ]

theorem joined_length {f : Nat → Bytes} {u n : Nat} (hf : ∀ i, i < n → (f i).length = u) :
    (joined f n).length = n * u := by
  induction n with
  | zero => simp [joined]
  | succ n ih =>
    rw [joined_succ, List.length_append, ih fun i hi => hf i (by omega), hf n n.lt_succ_self, Nat.succ_mul]

theorem unitAt_joined {f : Nat → Bytes} {u n i : Nat} (hf : ∀ i, i < n → (f i).length = u) (hi : i < n) :
    unitAt u i (joined f n) = f i := by
  induction n with
  | zero => omega
  | succ n ih =>
    have hpre : (joined f n).length = n * u := joined_length fun j hj => hf j (by omega)
    rw [joined_succ]
    rcases Nat.lt_succ_iff_lt_or_eq.mp hi with hlt | rfl
    · have hle : (i + 1) * u ≤ n * u := Nat.mul_le_mul_right u hlt
      rw [Nat.succ_mul] at hle
      have hin := ih (fun j hj => hf j (by omega)) hlt
      unfold unitAt at hin ⊢
      rw [List.drop_append_of_le_length (by omega),
        List.take_append_of_le_length (by rw [List.length_drop]; omega), hin]
    · rw [unitAt, ← hpre, List.drop_left, List.take_of_length_le (hf i hi).le]

/-! ## A register through a loop -/

/-- What a register holds before unit `i` when it holds `r` at the start and unit `j` leaves `f j` in it. -/
def heldBefore (r : Bytes) (f : Nat → Bytes) : Nat → Bytes
  | 0 => r
  | i + 1 => f i

theorem heldBefore_length {r : Bytes} {f : Nat → Bytes} {u i : Nat} (hr : r.length = u)
    (hf : ∀ j, j < i → (f j).length = u) : (heldBefore r f i).length = u := by
  cases i with
  | zero => exact hr
  | succ i => exact hf i i.lt_succ_self

theorem heldBefore_eq_unitBefore {r b : Bytes} {f : Nat → Bytes} {u i : Nat} (hf : ∀ j, j < i → unitAt u j b = f j) :
    heldBefore r f i = unitBefore u i r b := by
  cases i with
  | zero => rfl
  | succ i => exact (hf i i.lt_succ_self).symm

/-! ## The loop over blocks -/

/-- From `s` on, the loop over `unit` stands at `reg i` before unit `i` of `x`, and that unit answers `out i`. -/
structure Traces {α : Type} (s : State) (unit : State → α → State × Bytes) (x : Nat → α) (reg : Nat → State)
    (out : Nat → Bytes) : Prop where
  start : reg 0 = s
  dataOut : ∀ i, (reg i).dataOut = s.dataOut
  next : ∀ i, unit (reg i) (x i) = (reg (i + 1), out i)

theorem Traces.runUnits_eq {α : Type} {s : State} {unit : State → α → State × Bytes} {x : Nat → α}
    {reg : Nat → State} {out : Nat → Bytes} (h : Traces s unit x reg out) (hu : UnitRephases unit) (n : Nat)
    (f : State) :
    runUnits unit ((List.range n).map x) (rephase f s) = rephase (writeOut (joined out n) f) (reg n) := by
  induction n with
  | zero => rw [h.start]; exact congrArg (rephase · s) (writeOut_nil f).symm
  | succ n ih =>
    calc runUnits unit ((List.range (n + 1)).map x) (rephase f s)
        = runUnits unit [x n] (rephase (writeOut (joined out n) f) (reg n)) := by
          rw [List.range_succ, List.map_append, runUnits_append, ih, List.map_singleton]
      _ = rephase (writeOut (out n) (writeOut (joined out n) f)) (reg (n + 1)) := by
          rw [runUnits_cons, hu, h.next]; rfl
      _ = rephase (writeOut (joined out (n + 1)) f) (reg (n + 1)) := by
          rw [writeOut_append, joined_succ]

/-- The answer of a data phase that began at `s` and got through its units. -/
theorem finishRun_rephase_allocate {s u : State} (hd : u.dataOut = s.dataOut) (buf out : Bytes) :
    finishRun (rephase (writeOut out (allocate buf s)) u) = answered u 0 out := by
  rw [finishRun, complete_eq_answered, answered, answered, hd]
  rfl

/-- In mode `m` the direction `dec` is the loop over `unit`, block by block. -/
structure LoopsOver (dec : Bool) (m : Mode) (unit : State → Bytes → State × Bytes) : Prop where
  rephases : UnitRephases unit
  runs : ∀ v, cryptVariant dec m v = finishRun (runUnits unit (units v.bs v.inBuf) v)

theorem ecbEncrypt_loops : LoopsOver false .ecb ecbEncBlock := ⟨ecbEncBlock_rephases, fun _ => rfl⟩
theorem ecbDecrypt_loops : LoopsOver true .ecb ecbDecBlock := ⟨ecbDecBlock_rephases, fun _ => rfl⟩
theorem cbcEncrypt_loops : LoopsOver false .cbc cbcEncBlock := ⟨cbcEncBlock_rephases, fun _ => rfl⟩
theorem cbcDecrypt_loops : LoopsOver true .cbc cbcDecBlock := ⟨cbcDecBlock_rephases, fun _ => rfl⟩

section Command
variable {dec : Bool} {m : Mode} {unit : State → Bytes → State × Bytes} {buf : Bytes} {s : State}

/-- The data phases of the block modes, in the form in which O46 compares them. -/
theorem LoopsOver.piecewise (hl : LoopsOver dec m unit) (hblock : BlockMode s.ctx) (hs : SlotsInv s) :
    Piecewise s (cryptVariant dec m) fun buf v => finishRun (runUnits unit (units s.bs buf) v) :=
  .of_blocks hl.rephases hl.runs (fun _ hk => hk.bs) hs.blockSizePos
    fun _ hlen => (lengthCause_eq_none_iff.mp hlen).1 hblock

/-- A command of a block mode that is ready answers, block for block, what its units answer, and ends in the state
after the last of them (rules R137, R139). -/
theorem exec_crypt_of_traces {reg : Nat → State} {out : Nat → Bytes} (hl : LoopsOver dec m unit)
    (h : Ready dec m buf s) (hblock : BlockMode s.ctx) (hlen : buf.length % s.bs = 0)
    (htrace : Traces s unit (unitAt s.bs · buf) reg out)
    (hout : ∀ i, i < buf.length / s.bs → (out i).length = s.bs) :
    ∃ res : Bytes, exec (crypt dec buf) s = .next (answered (reg (buf.length / s.bs)) 0 res) ∧
      res.length = buf.length ∧ ∀ i, i < buf.length / s.bs → unitAt s.bs i res = out i := by
  refine ⟨joined out (buf.length / s.bs), ?_, ?_, fun i hi => unitAt_joined hout hi⟩
  · have hcause : lengthCause s.ctx s.bs buf.length = none := by simp [lengthCause_of_blockMode hblock, hlen]
    have hloop := htrace.runUnits_eq hl.rephases (buf.length / s.bs) (allocate buf s)
    rw [← units_eq_map_unitAt, ← allocate_eq_rephase] at hloop
    rw [(hl.piecewise hblock h.slots).exec_eq h.mode h.valid h.mayDecrypt hcause h.fits, hloop,
      finishRun_rephase_allocate (htrace.dataOut _)]
  · rw [joined_length hout, Nat.div_mul_cancel (Nat.dvd_of_mod_eq_zero hlen)]

/-- A buffer that is not empty and whole has a last block. -/
theorem exists_last_block (h : Ready dec m buf s) (hlen : buf.length % s.bs = 0) :
    ∃ k, buf.length / s.bs = k + 1 := by
  have hpos : 0 < buf.length := List.length_pos_iff.mpr h.nonempty
  have hle : s.bs ≤ buf.length := Nat.le_of_dvd hpos (Nat.dvd_of_mod_eq_zero hlen)
  exact Nat.exists_eq_succ_of_ne_zero (Nat.div_pos hle h.slots.blockSizePos).ne'

end Command

/-! ## The units of ECB and CBC -/

/-- `s` with `iv`, `old_cipher` and `tmp` replaced and `enc` and `dec` requests more. -/
def withRegisters (s : State) (iv oldCipher tmp : Bytes) (enc dec : Nat) : State :=
  { s with
    ctx := { s.ctx with iv := iv, oldCipher := oldCipher, tmp := tmp }
    ports := { s.ports with enc := s.ports.enc + enc, dec := s.ports.dec + dec } }

section Units
variable (s : State) (iv old tmp x : Bytes) (e d : Nat)

theorem ecbEncBlock_withRegisters : ecbEncBlock (withRegisters s iv old tmp e d) x =
    (withRegisters s iv old tmp (e + 1) d, cipherEnc s.ctx.st x) := rfl

theorem ecbDecBlock_withRegisters : ecbDecBlock (withRegisters s iv old tmp e d) x =
    (withRegisters s iv old tmp e (d + 1), cipherDec s.ctx.st x) := rfl

theorem cbcEncBlock_withRegisters : cbcEncBlock (withRegisters s iv old tmp e d) x =
    (withRegisters s (cipherEnc s.ctx.st (xorBytes x iv)) old (xorBytes x iv) (e + 1) d,
      cipherEnc s.ctx.st (xorBytes x iv)) := rfl

theorem cbcDecBlock_withRegisters : cbcDecBlock (withRegisters s iv old tmp e d) x =
    (withRegisters s x x (cipherDec s.ctx.st x) e (d + 1), xorBytes (cipherDec s.ctx.st x) iv) := rfl

end Units

/-! ## ECB -/

theorem ecbEncBlock_traces (s : State) (x : Nat → Bytes) :
    Traces s ecbEncBlock x (withRegisters s s.ctx.iv s.ctx.oldCipher s.ctx.tmp · 0)
      fun i => cipherEnc s.ctx.st (x i) where
  start := rfl
  dataOut _ := rfl
  next _ := ecbEncBlock_withRegisters ..

theorem ecbDecBlock_traces (s : State) (x : Nat → Bytes) :
    Traces s ecbDecBlock x (withRegisters s s.ctx.iv s.ctx.oldCipher s.ctx.tmp 0 ·)
      fun i => cipherDec s.ctx.st (x i) where
  start := rfl
  dataOut _ := rfl
  next _ := ecbDecBlock_withRegisters ..

/-- Settles O26: the registers stay, and each block counts one `ENC`. -/
theorem ecbEncryptTransformsEveryBlock : Obligations.EcbEncryptTransformsEveryBlock := fun s _ h hlen =>
  exec_crypt_of_traces ecbEncrypt_loops h (.inl h.mode) hlen (ecbEncBlock_traces s _)
    fun _ hi => (cipherEnc_length ..).trans (unitAt_length hi)

/-- Settles O27: the registers stay, and each block counts one `DEC`. -/
theorem ecbDecryptTransformsEveryBlock : Obligations.EcbDecryptTransformsEveryBlock := fun s _ h hlen =>
  exec_crypt_of_traces ecbDecrypt_loops h (.inl h.mode) hlen (ecbDecBlock_traces s _)
    fun _ hi => (cipherDec_length ..).trans (unitAt_length hi)

/-! ## CBC -/

section Chain
variable (st : CipherState) (iv : Bytes) (x : Nat → Bytes)

/-- The ciphertext blocks of rule R153: `C_i = E(P_i xor C_(i-1))`, with `iv` for `C_(-1)`. -/
def cipherChain : Nat → Bytes
  | 0 => cipherEnc st (xorBytes (x 0) iv)
  | i + 1 => cipherEnc st (xorBytes (x (i + 1)) (cipherChain i))

/-- What rule R153 gives to `E` for block `i`. -/
def chainInput (i : Nat) : Bytes := xorBytes (x i) (heldBefore iv (cipherChain st iv x) i)

theorem cipherChain_eq (i : Nat) : cipherChain st iv x i = cipherEnc st (chainInput st iv x i) := by
  cases i <;> rfl

/-- The plaintext blocks of rule R154: `P_i = D(C_i) xor C_(i-1)`, with `iv` for `C_(-1)`. -/
def plainChain (i : Nat) : Bytes := xorBytes (cipherDec st (x i)) (heldBefore iv x i)

end Chain

section ChainLength
variable {st : CipherState} {iv : Bytes} {x : Nat → Bytes} {u n : Nat}

theorem cipherChain_length (hiv : iv.length = u) (hx : ∀ i, i < n → (x i).length = u) (i : Nat) (hi : i < n) :
    (cipherChain st iv x i).length = u := by
  induction i with
  | zero => rw [cipherChain, cipherEnc_length, xorBytes_length, hx 0 hi, hiv, Nat.min_self]
  | succ i ih => rw [cipherChain, cipherEnc_length, xorBytes_length, hx _ hi, ih (by omega), Nat.min_self]

theorem plainChain_length (hiv : iv.length = u) (hx : ∀ i, i < n → (x i).length = u) (i : Nat) (hi : i < n) :
    (plainChain st iv x i).length = u := by
  rw [plainChain, xorBytes_length, cipherDec_length, hx i hi,
    heldBefore_length hiv fun j hj => hx j (hj.trans hi), Nat.min_self]

end ChainLength

/-- Before block `i`, `iv` holds ciphertext block `i - 1` and `tmp` what was given to `E` for it. -/
theorem cbcEncBlock_traces (s : State) (x : Nat → Bytes) :
    Traces s cbcEncBlock x
      (fun i => withRegisters s (heldBefore s.ctx.iv (cipherChain s.ctx.st s.ctx.iv x) i) s.ctx.oldCipher
        (heldBefore s.ctx.tmp (chainInput s.ctx.st s.ctx.iv x) i) i 0)
      (cipherChain s.ctx.st s.ctx.iv x) where
  start := rfl
  dataOut _ := rfl
  next i := by
    rw [cbcEncBlock_withRegisters, ← chainInput, ← cipherChain_eq]
    rfl

/-- Before block `i`, `iv` and `old_cipher` hold ciphertext block `i - 1` and `tmp` is `D` of it. -/
theorem cbcDecBlock_traces (s : State) (x : Nat → Bytes) :
    Traces s cbcDecBlock x
      (fun i => withRegisters s (heldBefore s.ctx.iv x i) (heldBefore s.ctx.oldCipher x i)
        (heldBefore s.ctx.tmp (fun j => cipherDec s.ctx.st (x j)) i) 0 i)
      (plainChain s.ctx.st s.ctx.iv x) where
  start := rfl
  dataOut _ := rfl
  next _ := cbcDecBlock_withRegisters ..

/-- Settles O28: the register of before block `i`, as the trace has it, is block `i - 1` of the result. -/
theorem cbcEncryptChainsBlocks : Obligations.CbcEncryptChainsBlocks := by
  intro s buf h hlen
  obtain ⟨out, hexec, hlength, hunit⟩ := exec_crypt_of_traces cbcEncrypt_loops h (.inr (.inl h.mode)) hlen
    (cbcEncBlock_traces s _) (cipherChain_length h.slots.ctx.ivLength fun _ => unitAt_length)
  have hinput (i : Nat) (hi : i < buf.length / s.bs) : chainInput s.ctx.st s.ctx.iv (unitAt s.bs · buf) i =
      xorBytes (unitAt s.bs i buf) (unitBefore s.bs i s.ctx.iv out) :=
    congrArg _ (heldBefore_eq_unitBefore fun j hj => hunit j (hj.trans hi))
  refine ⟨out, hexec.trans ?_, hlength, fun i hi => ?_⟩
  · obtain ⟨k, hk⟩ := exists_last_block h hlen
    have hlast : k < buf.length / s.bs := by omega
    rw [hk, Nat.add_sub_cancel, hunit k hlast, ← hinput k hlast]
    rfl
  · rw [hunit i hi, cipherChain_eq, hinput i hi]

/-- Settles O29: the register of before block `i`, as the trace has it, is block `i - 1` of the buffer. -/
theorem cbcDecryptChainsBlocks : Obligations.CbcDecryptChainsBlocks := by
  intro s buf h hlen
  obtain ⟨out, hexec, hlength, hunit⟩ := exec_crypt_of_traces cbcDecrypt_loops h (.inr (.inl h.mode)) hlen
    (cbcDecBlock_traces s _) (plainChain_length h.slots.ctx.ivLength fun _ => unitAt_length)
  refine ⟨out, hexec.trans ?_, hlength, fun i hi => ?_⟩
  · obtain ⟨k, hk⟩ := exists_last_block h hlen
    rw [hk]
    rfl
  · rw [hunit i hi, plainChain, heldBefore_eq_unitBefore fun _ _ => rfl]

/-! ## The reach of a changed block -/

theorem xorBytes_assoc (a b c : Bytes) : xorBytes (xorBytes a b) c = xorBytes a (xorBytes b c) := by
  refine List.ext_getElem (by simp [Nat.min_assoc]) fun i _ _ => ?_
  simp only [xorBytes, List.getElem_zipWith, BitVec.xor_assoc]

/-- Adding the difference of `b` and `c` turns the mask `b` into the mask `c`. -/
theorem xorBytes_mask_change (a b c : Bytes) (h : a.length ≤ b.length) :
    xorBytes (xorBytes a b) (xorBytes b c) = xorBytes a c := by
  rw [← xorBytes_assoc, xorBytes_cancel a b h]

theorem xorBytes_right_cancel {a b k : Bytes} (ha : a.length ≤ k.length) (hb : b.length ≤ k.length)
    (h : xorBytes a k = xorBytes b k) : a = b := by
  rw [← xorBytes_cancel a k ha, h, xorBytes_cancel b k hb]

theorem cipherDec_injective (st : CipherState) : Function.Injective (cipherDec st) :=
  Function.LeftInverse.injective (cipherEnc_cipherDec st)

/-- What O29 says of the plaintext, of a `DECRYPT` that is known to have succeeded. -/
theorem unitAt_of_cbcDecrypted {s t : State} {c p : Bytes} (h : Ready true .cbc c s)
    (hexec : exec (.decrypt c) s = .next t) (hok : AnsweredOk s t p) (j : Nat) (hj : j < c.length / s.bs) :
    unitAt s.bs j p = xorBytes (cipherDec s.ctx.st (unitAt s.bs j c)) (unitBefore s.bs j s.ctx.iv c) := by
  have hblock : BlockMode s.ctx := .inr (.inl h.mode)
  obtain ⟨hcause, -⟩ := (cbcDecrypt_loops.piecewise hblock h.slots).loop_of_ok (.refl s) h.mode hexec hok
  obtain ⟨out, hout, -, hunits⟩ := cbcDecryptChainsBlocks s c h ((lengthCause_eq_none_iff.mp hcause).1 hblock)
  cases hexec.symm.trans hout
  obtain ⟨-, rfl⟩ := (RoundTrip.answeredOk_answered rfl).mp hok
  exact hunits j hj

theorem unitBefore_congr {u j : Nat} {iv c c' : Bytes} (h : ∀ k, j = k + 1 → unitAt u k c = unitAt u k c') :
    unitBefore u j iv c = unitBefore u j iv c' := by
  cases j with
  | zero => rfl
  | succ k => exact h k rfl

theorem unitBefore_length {u j : Nat} {iv c : Bytes} (hiv : iv.length = u) (hj : j < c.length / u) :
    (unitBefore u j iv c).length = u := by
  rw [← heldBefore_eq_unitBefore fun _ _ => rfl]
  exact heldBefore_length hiv fun _ hk => unitAt_length (hk.trans hj)

/-- Settles O30: plaintext block `j` is `D` of ciphertext block `j`, which is injective, xor ciphertext block
`j - 1`. -/
theorem cbcErrorReachesTwoBlocks : Obligations.CbcErrorReachesTwoBlocks := by
  intro s t t' c c' p p' i h hlen hexec hok hexec' hok' hi hne hsame
  have h' : Ready true .cbc c' s :=
    { h with
      nonempty := List.length_pos_iff.mp (hlen ▸ List.length_pos_iff.mpr h.nonempty)
      fits := hlen ▸ h.fits }
  have hp := unitAt_of_cbcDecrypted h hexec hok
  have hp' := hlen ▸ unitAt_of_cbcDecrypted h' hexec' hok'
  have hlenD {b : Bytes} {j : Nat} (hj : j < b.length / s.bs) : (cipherDec s.ctx.st (unitAt s.bs j b)).length = s.bs :=
    (cipherDec_length ..).trans (unitAt_length hj)
  have hbefore {j : Nat} (hj : j ≠ i + 1) : unitBefore s.bs j s.ctx.iv c = unitBefore s.bs j s.ctx.iv c' :=
    unitBefore_congr fun k hk => hsame k (by omega)
  refine ⟨fun j hj hji hjn => ?_, fun heq => ?_, fun hn => ?_⟩
  · rw [hp j hj, hp' j hj, hsame j hji, hbefore hjn]
  · rw [hp i hi, hp' i hi, ← hbefore (by omega)] at heq
    have hmask : (unitBefore s.bs i s.ctx.iv c).length = s.bs := unitBefore_length h.slots.ctx.ivLength hi
    have hdec := xorBytes_right_cancel (by rw [hlenD hi, hmask]) (by rw [hlenD (hlen ▸ hi), hmask]) heq
    exact hne (cipherDec_injective s.ctx.st hdec)
  · rw [hp (i + 1) hn, hp' (i + 1) hn, ← hsame (i + 1) (by omega)]
    exact (xorBytes_mask_change _ (unitAt s.bs i c) _ (by rw [hlenD hn, unitAt_length hi])).symm

end Sys2Proof.BlockModes
end

section
/-! PROOF of O31 and O32. Both directions of CFB make the same keystream segment from `iv` and differ only in which
of the two segments, produced or consumed, is the ciphertext that is fed back (`fedSegment`). So one trace serves
both: before segment `i`, `iv` holds the last `BS` bytes of the initial `iv` and the text fed so far
(`cfbSegments_trace`, rule R163), and that text is the beginning of `OUT` or of `IN` (`fedText_eq_take`). -/

open Sys2Proof Sys2Proof.Machine Sys2Proof.Spec Sys2Proof.FrontEnd Sys2Proof.Splitting Sys2Proof.BlockModes

namespace Sys2Proof.Segments

/-! ## The last bytes of a text -/

theorem lastBytes_length {n : Nat} {b : Bytes} (h : n ≤ b.length) : (lastBytes n b).length = n := by
  rw [lastBytes, List.length_drop]
  omega

theorem lastBytes_of_length {n : Nat} {b : Bytes} (h : b.length = n) : lastBytes n b = b := by
  simp [lastBytes, h]

/-- Shifting a segment into the last `n` bytes of a text gives the last `n` bytes of the longer text. -/
theorem lastBytes_append {n : Nat} {b c : Bytes} (hb : n ≤ b.length) (hc : c.length ≤ n) :
    lastBytes n (b ++ c) = (lastBytes n b).drop c.length ++ c := by
  rw [lastBytes, lastBytes, List.drop_drop, List.length_append, List.drop_append_of_le_length (by omega),
    show b.length + c.length - n = b.length - n + c.length by omega]

/-- The feedback step of rule R163 on a register that holds the last `BS` bytes of a text. -/
theorem cfbFeed_lastBytes {bs : Nat} {b c : Bytes} (hb : bs ≤ b.length) (hc : c.length ≤ bs) :
    cfbFeed bs (lastBytes bs b) c = lastBytes bs (b ++ c) := by
  rw [cfbFeed_eq_shift bs _ c (lastBytes_length hb), lastBytes_append hb hc]

theorem take_succ_mul (u i : Nat) (b : Bytes) : b.take ((i + 1) * u) = b.take (i * u) ++ unitAt u i b := by
  rw [Nat.succ_mul, List.take_add, unitAt]

theorem unitAt_length_le (u i : Nat) (b : Bytes) : (unitAt u i b).length ≤ u :=
  List.length_take_le u _

/-! ## One segment -/

/-- One segment of CFB in the direction `dec`. -/
def cfbSegment (dec : Bool) : State → Bytes → State × Bytes := if dec = true then cfbDecSegment else cfbEncSegment

/-- What a segment `x` becomes with the register `iv`, in both directions (rules R161, R162). -/
def outSegment (s : State) (iv x : Bytes) : Bytes :=
  xorBytes x ((cipherEnc s.ctx.st iv).take (segmentBytes s.ctx.segmentSize))

/-- The ciphertext of a command that turns `input` into `output`. -/
def ciphertext (dec : Bool) (input output : Bytes) : Bytes := if dec = true then input else output

/-- The segment that is fed back for `x`: its ciphertext, produced or consumed (rules R161, R162). -/
def fedSegment (dec : Bool) (s : State) (iv x : Bytes) : Bytes := ciphertext dec x (outSegment s iv x)

theorem outSegment_length_le (s : State) (iv x : Bytes) : (outSegment s iv x).length ≤ x.length := by
  rw [outSegment, xorBytes_length]
  exact Nat.min_le_left ..

theorem fedSegment_length_le (dec : Bool) (s : State) (iv x : Bytes) : (fedSegment dec s iv x).length ≤ x.length := by
  cases dec with
  | false => exact outSegment_length_le s iv x
  | true => exact le_rfl

/-- A segment reads `iv` alone, and writes `iv` and `tmp` alone; it counts one `ENC`. -/
theorem cfbSegment_withRegisters (dec : Bool) (s : State) (iv old tmp x : Bytes) (e d : Nat) :
    cfbSegment dec (withRegisters s iv old tmp e d) x =
      (withRegisters s (cfbFeed s.bs iv (fedSegment dec s iv x)) old (cipherEnc s.ctx.st iv) (e + 1) d,
        outSegment s iv x) := by
  cases dec <;> rfl

theorem cfbSegment_rephases (dec : Bool) : UnitRephases (cfbSegment dec) := by
  cases dec with
  | false => exact cfbEncSegment_rephases
  | true => exact cfbDecSegment_rephases

theorem cryptVariant_cfb (dec : Bool) (v : State) : cryptVariant dec .cfb v =
    finishRun (runUnits (cfbSegment dec) (units (segmentBytes v.ctx.segmentSize) v.inBuf) v) := by
  cases dec <;> rfl

/-! ## The loop over segments -/

section Loop
variable (dec : Bool) (s : State) (x : Nat → Bytes)

/-- The ciphertext fed back before segment `i` of the input `x 0`, `x 1`, ... -/
def fedText : Nat → Bytes
  | 0 => []
  | i + 1 => fedText i ++ fedSegment dec s (lastBytes s.bs (s.ctx.iv ++ fedText i)) (x i)

/-- What `iv` holds before segment `i`. -/
def register (i : Nat) : Bytes := lastBytes s.bs (s.ctx.iv ++ fedText dec s x i)

theorem fedText_succ (i : Nat) :
    fedText dec s x (i + 1) = fedText dec s x i ++ fedSegment dec s (register dec s x i) (x i) := rfl

/-- The state before segment `i`. -/
def beforeSegment (i : Nat) : State :=
  withRegisters s (register dec s x i) s.ctx.oldCipher
    (heldBefore s.ctx.tmp (fun j => cipherEnc s.ctx.st (register dec s x j)) i) i 0

end Loop

section Run
variable {dec : Bool} {s : State} {x : Nat → Bytes} {buf out : Bytes}

theorem register_zero (hiv : s.ctx.iv.length = s.bs) : register dec s x 0 = s.ctx.iv := by
  rw [register, fedText, List.append_nil, lastBytes_of_length hiv]

theorem register_length (hiv : s.ctx.iv.length = s.bs) (i : Nat) : (register dec s x i).length = s.bs :=
  lastBytes_length (by rw [List.length_append]; omega)

theorem register_succ (hiv : s.ctx.iv.length = s.bs) (hx : ∀ i, (x i).length ≤ s.bs) (i : Nat) :
    register dec s x (i + 1) =
      cfbFeed s.bs (register dec s x i) (fedSegment dec s (register dec s x i) (x i)) := by
  have hfed := (fedSegment_length_le dec s (register dec s x i) (x i)).trans (hx i)
  have htext : s.bs ≤ (s.ctx.iv ++ fedText dec s x i).length := by rw [List.length_append]; omega
  rw [register, fedText_succ, ← List.append_assoc]
  exact (cfbFeed_lastBytes htext hfed).symm

/-- The consequence stated in rule R163, with what the segments answer. -/
theorem cfbSegments_trace (hiv : s.ctx.iv.length = s.bs) (hx : ∀ i, (x i).length ≤ s.bs) :
    Traces s (cfbSegment dec) x (beforeSegment dec s x) fun i => outSegment s (register dec s x i) (x i) where
  start := by
    rw [beforeSegment, register_zero hiv]
    rfl
  dataOut _ := rfl
  next i := by
    rw [beforeSegment, cfbSegment_withRegisters, ← register_succ hiv hx]
    rfl

/-- The text fed back before segment `i` is the beginning of the ciphertext. -/
theorem fedText_eq_take {u n : Nat}
    (hout : ∀ i, i < n → unitAt u i out = outSegment s (register dec s (unitAt u · buf) i) (unitAt u i buf))
    {i : Nat} (hi : i ≤ n) : fedText dec s (unitAt u · buf) i = (ciphertext dec buf out).take (i * u) := by
  induction i with
  | zero => rw [Nat.zero_mul, List.take_zero, fedText]
  | succ i ih =>
    have hunit : fedSegment dec s (register dec s (unitAt u · buf) i) (unitAt u i buf) =
        unitAt u i (ciphertext dec buf out) := by
      cases dec with
      | false => exact (hout i hi).symm
      | true => rfl
    rw [fedText_succ, ih (by omega), hunit, take_succ_mul]

/-! ## The command -/

theorem segmentBytes_bounds_of_ready (h : Ready dec .cfb buf s) :
    0 < segmentBytes s.ctx.segmentSize ∧ segmentBytes s.ctx.segmentSize ≤ s.bs :=
  RoundTrip.segmentBytes_bounds (h.slots.ctx.segmentOk h.valid h.mode)

theorem outSegment_register_length (h : Ready dec .cfb buf s) {i : Nat}
    (hx : (x i).length = segmentBytes s.ctx.segmentSize) :
    (outSegment s (register dec s x i) (x i)).length = segmentBytes s.ctx.segmentSize := by
  obtain ⟨-, hle⟩ := segmentBytes_bounds_of_ready h
  rw [outSegment, xorBytes_length, List.length_take, cipherEnc_length, register_length h.slots.ctx.ivLength, hx]
  omega

theorem cfb_piecewise (h : Ready dec .cfb buf s) : Piecewise s (cryptVariant dec .cfb) fun b v =>
    finishRun (runUnits (cfbSegment dec) (units (segmentBytes s.ctx.segmentSize) b) v) := by
  refine .of_blocks (size := fun v => segmentBytes v.ctx.segmentSize) (cfbSegment_rephases dec)
    (cryptVariant_cfb dec) (fun v hk => ?_) (segmentBytes_bounds_of_ready h).1
    fun _ hlen => (lengthCause_eq_none_iff.mp hlen).2 h.mode
  obtain ⟨_, _, _, hseg, _⟩ := Slots.identity_eq_iff.mp hk.identity
  exact congrArg segmentBytes hseg

/-- A CFB command that is ready answers, segment for segment, what the trace says, and ends in the state after the
last segment (rules R137, R139). -/
theorem exec_cfb (h : Ready dec .cfb buf s) {u : Nat} (hu : segmentBytes s.ctx.segmentSize = u)
    (hlen : buf.length % u = 0) : ∃ out : Bytes,
    exec (crypt dec buf) s =
      .next (answered (beforeSegment dec s (unitAt u · buf) (buf.length / u)) 0 out) ∧
    out.length = buf.length ∧
    ∀ i, i < buf.length / u →
      unitAt u i out = outSegment s (register dec s (unitAt u · buf) i) (unitAt u i buf) := by
  subst hu
  have hout (i : Nat) (hi : i < buf.length / segmentBytes s.ctx.segmentSize) :=
    outSegment_register_length h (x := (unitAt (segmentBytes s.ctx.segmentSize) · buf)) (unitAt_length hi)
  refine ⟨joined _ (buf.length / segmentBytes s.ctx.segmentSize), ?_, ?_, fun i hi => unitAt_joined hout hi⟩
  · have hcause : lengthCause s.ctx s.bs buf.length = none := by simp [lengthCause_of_cfb h.mode, hlen]
    have htrace := cfbSegments_trace (dec := dec) h.slots.ctx.ivLength fun i =>
      (unitAt_length_le _ i buf).trans (segmentBytes_bounds_of_ready h).2
    have hloop := htrace.runUnits_eq (cfbSegment_rephases dec) (buf.length / segmentBytes s.ctx.segmentSize)
      (allocate buf s)
    rw [← units_eq_map_unitAt, ← allocate_eq_rephase] at hloop
    rw [(cfb_piecewise h).exec_eq h.mode h.valid h.mayDecrypt hcause h.fits, hloop,
      finishRun_rephase_allocate (htrace.dataOut _)]
  · rw [joined_length hout, Nat.div_mul_cancel (Nat.dvd_of_mod_eq_zero hlen)]

/-- What O31 and O32 say, each of its direction: in CFB mode the ciphertext is what is fed back. -/
theorem cfb_feeds_back_ciphertext (h : Ready dec .cfb buf s) {u : Nat} (hu : segmentBytes s.ctx.segmentSize = u)
    (hlen : buf.length % u = 0) :
    ∃ out : Bytes,
      exec (crypt dec buf) s = .next (answered
        { s with
          ctx := { s.ctx with
                   iv := lastBytes s.bs (s.ctx.iv ++ ciphertext dec buf out)
                   tmp := cipherEnc s.ctx.st
                     (lastBytes s.bs (s.ctx.iv ++ (ciphertext dec buf out).take (buf.length - u))) }
          ports := { s.ports with enc := s.ports.enc + buf.length / u } } 0 out) ∧
      out.length = buf.length ∧
      ∀ i, i < buf.length / u →
        unitAt u i out = xorBytes (unitAt u i buf)
          ((cipherEnc s.ctx.st (lastBytes s.bs (s.ctx.iv ++ (ciphertext dec buf out).take (i * u)))).take u) := by
  obtain ⟨out, hexec, hlength, hunit⟩ := exec_cfb h hu hlen
  have hreg (i : Nat) (hi : i ≤ buf.length / u) : register dec s (unitAt u · buf) i =
      lastBytes s.bs (s.ctx.iv ++ (ciphertext dec buf out).take (i * u)) := by
    rw [register, fedText_eq_take hunit hi]
  have hwhole : buf.length / u * u = buf.length := Nat.div_mul_cancel (Nat.dvd_of_mod_eq_zero hlen)
  refine ⟨out, hexec.trans ?_, hlength, fun i hi => ?_⟩
  · have hiv : (ciphertext dec buf out).take (buf.length / u * u) = ciphertext dec buf out :=
      List.take_of_length_le (by cases dec <;> simp [ciphertext, hwhole, hlength])
    obtain ⟨k, hk⟩ : ∃ k, buf.length / u = k + 1 := Nat.exists_eq_succ_of_ne_zero fun h0 => h.nonempty
      (List.length_eq_zero_iff.mp (by rw [← hwhole, h0, Nat.zero_mul]))
    have hlast : buf.length - u = k * u := by rw [← hwhole, hk, Nat.succ_mul, Nat.add_sub_cancel]
    rw [hlast, ← hreg k (by omega), ← hiv, ← hreg _ le_rfl, beforeSegment, hk]
    rfl
  · rw [hunit i hi, outSegment, hu, hreg i hi.le]

end Run

/-- Settles O31: the ciphertext of `ENCRYPT` is its output. -/
theorem cfbEncryptFeedsBackItsOutput : Obligations.CfbEncryptFeedsBackItsOutput := fun _ _ h hlen =>
  cfb_feeds_back_ciphertext h rfl hlen

/-- Settles O32: the ciphertext of `DECRYPT` is its input. -/
theorem cfbDecryptFeedsBackItsInput : Obligations.CfbDecryptFeedsBackItsInput := fun _ _ h hlen =>
  cfb_feeds_back_ciphertext h rfl hlen

end Sys2Proof.Segments
end

section
/-! PROOF of O33 and O34. A block of OFB reads `iv` alone, so the register before block `k` is `E^k(iv)` whatever
the input is, and one trace (`ofbBlock_traces`) serves both directions and both statements. For O34, what a command
that succeeds answers is its input xor the keystream `E(iv)`, `E^2(iv)`, ... (`ofb_keystream_of_ok`). -/

open Sys2Proof Sys2Proof.Machine Sys2Proof.Spec Sys2Proof.FrontEnd Sys2Proof.Splitting Sys2Proof.BlockModes

namespace Sys2Proof.OutputFeedback

/-! ## The loop over blocks -/

/-- The register after `i` blocks, which is also the keystream of the last of them (rule R170). -/
def keystream (s : State) (i : Nat) : Bytes := (cipherEnc s.ctx.st)^[i] s.ctx.iv

theorem keystream_succ (s : State) (i : Nat) : keystream s (i + 1) = cipherEnc s.ctx.st (keystream s i) :=
  Function.iterate_succ_apply' ..

theorem keystream_length (s : State) (i : Nat) : (keystream s i).length = s.ctx.iv.length := by
  induction i with
  | zero => rfl
  | succ i ih => rw [keystream_succ, cipherEnc_length, ih]

/-- The state before block `i`: no input occurs in it. -/
def beforeBlock (s : State) (i : Nat) : State :=
  withRegisters s (keystream s i) s.ctx.oldCipher (heldBefore s.ctx.tmp (fun j => keystream s (j + 1)) i) i 0

theorem ofbBlock_withRegisters (s : State) (iv old tmp x : Bytes) (e d : Nat) :
    ofbBlock (withRegisters s iv old tmp e d) x =
      (withRegisters s (cipherEnc s.ctx.st iv) old (cipherEnc s.ctx.st iv) (e + 1) d,
        xorBytes x (cipherEnc s.ctx.st iv)) := rfl

theorem ofbBlock_traces (s : State) (x : Nat → Bytes) :
    Traces s ofbBlock x (beforeBlock s) fun i => xorBytes (x i) (keystream s (i + 1)) where
  start := rfl
  dataOut _ := rfl
  next i := by
    rw [beforeBlock, ofbBlock_withRegisters, ← keystream_succ]
    rfl

theorem ofbOutput_length {s : State} {buf : Bytes} {i : Nat} (hs : SlotsInv s) (hi : i < buf.length / s.bs) :
    (xorBytes (unitAt s.bs i buf) (keystream s (i + 1))).length = s.bs := by
  rw [xorBytes_length, unitAt_length hi, keystream_length, hs.ctx.ivLength, Nat.min_self]

/-- Both directions run the same loop (rule R171). -/
theorem ofb_loops (dec : Bool) : LoopsOver dec .ofb ofbBlock where
  rephases := ofbBlock_rephases
  runs _ := by cases dec <;> rfl

/-- Settles O33: the trace of OFB, after its last block. -/
theorem ofbXorsTheIteratedKeystream : Obligations.OfbXorsTheIteratedKeystream := by
  intro dec s buf h hlen
  obtain ⟨out, hexec, hlength, hunit⟩ :=
    exec_crypt_of_traces (ofb_loops dec) h (.inr (.inr h.mode)) hlen (ofbBlock_traces s _)
      fun _ => ofbOutput_length h.slots
  refine ⟨out, hexec.trans ?_, hlength, hunit⟩
  obtain ⟨k, hk⟩ := exists_last_block h hlen
  rw [hk]
  rfl

/-! ## The keystream of a command that succeeded -/

/-- A command of a block mode that answered `OK`, to the empty buffer too, got through the whole of its trace. -/
theorem eq_of_traces_of_ok {dec : Bool} {m : Mode} {unit : State → Bytes → State × Bytes} {buf x : Bytes}
    {s t : State} {reg : Nat → State} {out : Nat → Bytes} (hl : LoopsOver dec m unit) (hs : SlotsInv s)
    (hm : s.ctx.mode = some m) (hblock : BlockMode s.ctx) (htrace : Traces s unit (unitAt s.bs · buf) reg out)
    (hexec : exec (crypt dec buf) s = .next t) (hok : AnsweredOk s t x) :
    buf.length % s.bs = 0 ∧ t = answered (reg (buf.length / s.bs)) 0 x ∧ x = joined out (buf.length / s.bs) := by
  obtain ⟨hcause, ht⟩ := (hl.piecewise hblock hs).loop_of_ok (.refl s) hm hexec hok
  have hloop := htrace.runUnits_eq hl.rephases (buf.length / s.bs) (allocate buf s)
  rw [← units_eq_map_unitAt, ← allocate_eq_rephase] at hloop
  rw [hloop, finishRun_rephase_allocate (htrace.dataOut _)] at ht
  subst ht
  obtain ⟨-, rfl⟩ := (RoundTrip.answeredOk_answered (htrace.dataOut _)).mp hok
  exact ⟨(lengthCause_eq_none_iff.mp hcause).1 hblock, rfl, rfl⟩

theorem joined_unitAt {u : Nat} {b : Bytes} (h : b.length % u = 0) : joined (unitAt u · b) (b.length / u) = b := by
  rw [joined, List.flatMap, ← units_eq_map_unitAt, units_flatten u b h]

theorem xorBytes_joined {f g : Nat → Bytes} {u n : Nat} (hf : ∀ i, i < n → (f i).length = u)
    (hg : ∀ i, i < n → (g i).length = u) :
    xorBytes (joined f n) (joined g n) = joined (fun i => xorBytes (f i) (g i)) n := by
  induction n with
  | zero => rfl
  | succ n ih =>
    have hf' (i : Nat) (hi : i < n) := hf i (hi.trans n.lt_succ_self)
    have hg' (i : Nat) (hi : i < n) := hg i (hi.trans n.lt_succ_self)
    rw [joined_succ, joined_succ, joined_succ, xorBytes_append _ _ _ _ (by rw [joined_length hf', joined_length hg']),
      ih hf' hg']

theorem joined_congr {f g : Nat → Bytes} {n : Nat} (h : ∀ i, i < n → f i = g i) : joined f n = joined g n :=
  List.flatMap_congr fun i hi => h i (List.mem_range.mp hi)

/-- Taking the input off an OFB result leaves the keystream (rule R172). -/
theorem ofb_keystream_of_ok {s t : State} {buf x : Bytes} (hs : SlotsInv s) (hm : s.ctx.mode = some .ofb)
    (hexec : exec (.encrypt buf) s = .next t) (hok : AnsweredOk s t x) :
    xorBytes x buf = joined (fun i => keystream s (i + 1)) (buf.length / s.bs) ∧
      t.ctx = (beforeBlock s (buf.length / s.bs)).ctx := by
  obtain ⟨hlen, rfl, hx⟩ :=
    eq_of_traces_of_ok (ofb_loops false) hs hm (.inr (.inr hm)) (ofbBlock_traces s _) hexec hok
  refine ⟨?_, rfl⟩
  have hstream (i : Nat) : (keystream s (i + 1)).length = s.bs := (keystream_length ..).trans hs.ctx.ivLength
  have hunit (i : Nat) (hi : i < buf.length / s.bs) : (unitAt s.bs i buf).length = s.bs := unitAt_length hi
  calc xorBytes x buf
      = xorBytes x (joined (unitAt s.bs · buf) (buf.length / s.bs)) := by rw [joined_unitAt hlen]
    _ = joined (fun i => xorBytes (xorBytes (unitAt s.bs i buf) (keystream s (i + 1))) (unitAt s.bs i buf))
          (buf.length / s.bs) := by rw [hx, xorBytes_joined (fun _ => ofbOutput_length hs) hunit]
    _ = joined (fun i => keystream s (i + 1)) (buf.length / s.bs) := joined_congr fun i hi => by
          rw [xorBytes_comm (unitAt s.bs i buf), xorBytes_cancel _ _ (by rw [hstream, hunit i hi])]

/-- Settles O34: only the length of the message occurs in the keystream and in the context that is left. -/
theorem ofbKeystreamIgnoresTheData : Obligations.OfbKeystreamIgnoresTheData := by
  intro s t1 t2 m1 m2 o1 o2 hs _ hm hlen hexec1 hok1 hexec2 hok2
  obtain ⟨hstream1, hctx1⟩ := ofb_keystream_of_ok hs hm hexec1 hok1
  obtain ⟨hstream2, hctx2⟩ := ofb_keystream_of_ok hs hm hexec2 hok2
  exact ⟨by rw [hstream1, hstream2, hlen], by rw [hctx1, hctx2, hlen]⟩

end Sys2Proof.OutputFeedback
end

section
/-! PROOFS of O35 to O37 and O58. In both directions a byte of PGP reads the keystream byte at `count` and leaves its
ciphertext byte there, so the state inside a message depends only on the ciphertext so far and the block reached
(`inBlock`): a refill moves to the next block (`pgpReady_inBlock`), a byte makes the ciphertext one byte longer
(`pgpByte_inBlock`), and O58 is the induction over the message. O37 cuts the ciphertext history at the block ends. -/

open Sys2Proof Sys2Proof.Machine Sys2Proof.Spec Sys2Proof.FrontEnd Sys2Proof.Splitting Sys2Proof.BlockModes
open Sys2Proof.Segments

namespace Sys2Proof.RunningRegister

/-! ## One byte in either direction -/

/-- One byte of PGP in the direction `dec`. -/
def pgpByte (dec : Bool) : State → Byte → State × Bytes := if dec = true then pgpDecByte else pgpEncByte

/-- The ciphertext byte that the register keeps for the input `b` under the keystream byte `k` (rules R177, R178). -/
def keptByte (dec : Bool) (k b : Byte) : Byte := if dec = true then b else k ^^^ b

theorem pgpByte_eq (dec : Bool) (s : State) (b : Byte) : pgpByte dec s b =
    ({ pgpReady s with
        ctx := { (pgpReady s).ctx with
                 iv := (pgpReady s).ctx.iv.set (pgpReady s).ctx.count
                   (keptByte dec (byteAt (pgpReady s).ctx.iv (pgpReady s).ctx.count) b)
                 count := (pgpReady s).ctx.count + 1 } },
      [byteAt (pgpReady s).ctx.iv (pgpReady s).ctx.count ^^^ b]) := by
  cases dec <;> rfl

theorem pgpByte_rephases (dec : Bool) : UnitRephases (pgpByte dec) := by
  cases dec with
  | false => exact pgpEncByte_rephases
  | true => exact pgpDecByte_rephases

theorem pgp_piecewise (dec : Bool) (s : State) :
    Piecewise s (cryptVariant dec .pgp) fun buf v => finishRun (runUnits (pgpByte dec) buf v) :=
  .of_units (cut := id) (pgpByte_rephases dec) (fun _ _ => by cases dec <;> rfl) rfl fun _ _ _ => rfl

/-- A PGP command that is ready runs through its bytes. -/
theorem exec_pgp {dec : Bool} {buf : Bytes} {s : State} (h : Ready dec .pgp buf s) :
    exec (crypt dec buf) s = .next (finishRun (runUnits (pgpByte dec) buf (allocate buf s))) := by
  have hcause : lengthCause s.ctx s.bs buf.length = none := by simp [lengthCause, h.mode]
  exact (pgp_piecewise dec s).exec_eq h.mode h.valid h.mayDecrypt hcause h.fits

theorem pgpReady_of_lt {s : State} (h : s.ctx.count < s.bs) : pgpReady s = s := if_neg h.ne

theorem pgpReady_of_full {s : State} (h : s.ctx.count = s.bs) : pgpReady s = pgpRefill s := if_pos h

/-- Settles O35: the one byte, after the refill where there is one. -/
theorem pgpProcessesOneByte : Obligations.PgpProcessesOneByte := by
  intro dec s b h
  rw [exec_pgp h, runUnits_cons, runUnits_nil, pgpByte_eq, finishRun, complete_eq_answered]
  refine ⟨fun hlt => ?_, fun hfull => ?_⟩
  · rw [pgpReady_of_lt (s := allocate [b] s) hlt]
    rfl
  · rw [pgpReady_of_full (s := allocate [b] s) hfull]
    rfl

/-! ## Units and registers under a longer text -/

theorem unitAt_append_left {u i : Nat} {a : Bytes} (h : (i + 1) * u ≤ a.length) (b : Bytes) :
    unitAt u i (a ++ b) = unitAt u i a := by
  rw [Nat.succ_mul] at h
  rw [unitAt, unitAt, List.drop_append_of_le_length (by omega),
    List.take_append_of_le_length (by rw [List.length_drop]; omega)]

/-- The unit with which a text ends is what is left of it. -/
theorem unitAt_eq_drop {u i : Nat} {a : Bytes} (h : a.length ≤ (i + 1) * u) : unitAt u i a = a.drop (i * u) := by
  rw [Nat.succ_mul] at h
  exact List.take_of_length_le (by rw [List.length_drop]; omega)

theorem byteAt_append_left {a : Bytes} {i : Nat} (h : i < a.length) (b : Bytes) : byteAt (a ++ b) i = byteAt a i :=
  List.getD_append _ _ _ _ h

theorem byteAt_append_right {a : Bytes} {i : Nat} (h : a.length ≤ i) (b : Bytes) :
    byteAt (a ++ b) i = byteAt b (i - a.length) :=
  List.getD_append_right _ _ _ _ h

/-- The byte at `count` of a register whose bytes before it are in use is keystream. -/
theorem byteAt_used_append_drop (used key : Bytes) :
    byteAt (used ++ key.drop used.length) used.length = byteAt key used.length := by
  rw [byteAt_append_right le_rfl, Nat.sub_self, byteAt, byteAt, List.getD_eq_getElem?_getD,
    List.getD_eq_getElem?_getD, List.getElem?_drop, Nat.add_zero]

/-- Writing the byte at `count` takes one byte of keystream into use. -/
theorem set_used_append_drop {used key : Bytes} (h : used.length < key.length) (x : Byte) :
    (used ++ key.drop used.length).set used.length x = used ++ [x] ++ key.drop (used.length + 1) := by
  rw [List.set_append_right _ _ le_rfl, Nat.sub_self, List.drop_eq_getElem_cons h, List.set_cons_zero,
    List.append_assoc]
  rfl

/-! ## The state inside a message -/

/-- The state in which a PGP message begun at `s` stands when `ct` is its ciphertext so far and the register holds
block `k` of the history (rules R176 to R178). -/
def inBlock (s : State) (ct : Bytes) (k : Nat) : State :=
  { s with
    ctx := { s.ctx with
             iv := unitAt s.bs k (pgpHistory s ct) ++ (pgpKeyBlock s ct k).drop (s.ctx.count + ct.length - k * s.bs)
             oldCipher := if k = 0 then s.ctx.oldCipher else unitAt s.bs (k - 1) (pgpHistory s ct)
             count := s.ctx.count + ct.length - k * s.bs }
    ports := { s.ports with enc := s.ports.enc + k } }

theorem inBlock_dataOut (s : State) (ct : Bytes) (k : Nat) : (inBlock s ct k).dataOut = s.dataOut := rfl

section Message
variable {s : State} {ct : Bytes} {k : Nat}

theorem pgpHistory_length (hs : SlotsInv s) (ct : Bytes) :
    (pgpHistory s ct).length = s.ctx.count + ct.length := by
  rw [pgpHistory, List.length_append, List.length_take_of_le (hs.ctx.countLe.trans hs.ctx.ivLength.ge)]

theorem pgpHistory_append (s : State) (ct x : Bytes) : pgpHistory s (ct ++ x) = pgpHistory s ct ++ x :=
  (List.append_assoc ..).symm

/-- The keystream of a block that has been reached does not depend on the ciphertext to come. -/
theorem pgpKeyBlock_append (hs : SlotsInv s) (hk : k * s.bs ≤ s.ctx.count + ct.length) (x : Bytes) :
    pgpKeyBlock s (ct ++ x) k = pgpKeyBlock s ct k := by
  cases k with
  | zero => rfl
  | succ k =>
    rw [← pgpHistory_length hs] at hk
    exact congrArg (cipherEnc s.ctx.st) (by rw [pgpHistory_append]; exact unitAt_append_left hk x)

theorem pgpKeyBlock_length (hs : SlotsInv s) (hk : k * s.bs ≤ s.ctx.count + ct.length) :
    (pgpKeyBlock s ct k).length = s.bs := by
  cases k with
  | zero => exact hs.ctx.ivLength
  | succ k =>
    refine (cipherEnc_length _ _).trans (unitAt_length ?_)
    rw [pgpHistory_length hs]
    exact (Nat.le_div_iff_mul_le hs.blockSizePos).mpr hk

/-- The bytes of the block in use. -/
theorem unitAt_pgpHistory_length (hs : SlotsInv s) (hhi : s.ctx.count + ct.length ≤ (k + 1) * s.bs) :
    (unitAt s.bs k (pgpHistory s ct)).length = s.ctx.count + ct.length - k * s.bs := by
  rw [← pgpHistory_length hs] at hhi ⊢
  rw [unitAt_eq_drop hhi, List.length_drop]

/-- A message begins in block 0, before any ciphertext of its own. -/
theorem inBlock_start (hs : SlotsInv s) : inBlock s [] 0 = s := by
  have hle : (s.ctx.iv.take s.ctx.count).length ≤ s.bs := (List.length_take_le ..).trans hs.ctx.countLe
  have hiv : unitAt s.bs 0 (pgpHistory s []) ++ s.ctx.iv.drop s.ctx.count = s.ctx.iv := by
    rw [pgpHistory, List.append_nil, unitAt, Nat.zero_mul, List.drop_zero, List.take_of_length_le hle,
      List.take_append_drop]
  simp [inBlock, pgpKeyBlock, hiv]

/-- The check before a byte leaves the register in the block of that byte, refilled if the block before is used up
(rules R175, R176). -/
theorem pgpReady_inBlock (hs : SlotsInv s) (hlo : k * s.bs < s.ctx.count + ct.length)
    (hhi : s.ctx.count + ct.length ≤ (k + 1) * s.bs) :
    pgpReady (inBlock s ct k) = inBlock s ct ((s.ctx.count + ct.length) / s.bs) := by
  have hmul : (k + 1) * s.bs = k * s.bs + s.bs := Nat.succ_mul ..
  rcases hhi.lt_or_eq with hlt | hfull
  · rw [Nat.div_eq_of_lt_le hlo.le hlt]
    refine pgpReady_of_lt ?_
    show s.ctx.count + ct.length - k * s.bs < s.bs
    omega
  · have hcount : s.ctx.count + ct.length - k * s.bs = s.bs := by omega
    have hiv : (inBlock s ct k).ctx.iv = unitAt s.bs k (pgpHistory s ct) := by
      show _ ++ List.drop _ _ = _
      rw [hcount, List.drop_of_length_le (pgpKeyBlock_length hs hlo.le).le, List.append_nil]
    have hdrop : unitAt s.bs (k + 1) (pgpHistory s ct) = [] := by
      rw [unitAt, List.drop_of_length_le (by rw [pgpHistory_length hs, hfull]), List.take_nil]
    rw [hfull, Nat.mul_div_cancel _ hs.blockSizePos, pgpReady_of_full (s := inBlock s ct k) hcount, pgpRefill, hiv]
    simp only [inBlock, hfull, hdrop, Nat.sub_self, List.drop_zero, List.nil_append]
    rfl

/-- Inside a block the keystream byte at `count` is that of the block. -/
theorem byteAt_inBlock (hs : SlotsInv s) (hhi : s.ctx.count + ct.length < (k + 1) * s.bs) :
    byteAt (inBlock s ct k).ctx.iv (inBlock s ct k).ctx.count =
      byteAt (pgpKeyBlock s ct k) (s.ctx.count + ct.length - k * s.bs) := by
  have hused := unitAt_pgpHistory_length hs hhi.le
  have hbyte := byteAt_used_append_drop (unitAt s.bs k (pgpHistory s ct)) (pgpKeyBlock s ct k)
  rwa [hused] at hbyte

/-- A ciphertext byte written at `count` makes the ciphertext one byte longer. -/
theorem inBlock_append (hs : SlotsInv s) (hlo : k * s.bs ≤ s.ctx.count + ct.length)
    (hhi : s.ctx.count + ct.length < (k + 1) * s.bs) (x : Byte) :
    { inBlock s ct k with
      ctx := { (inBlock s ct k).ctx with
               iv := (inBlock s ct k).ctx.iv.set (inBlock s ct k).ctx.count x
               count := (inBlock s ct k).ctx.count + 1 } } = inBlock s (ct ++ [x]) k := by
  have hmul : (k + 1) * s.bs = k * s.bs + s.bs := Nat.succ_mul ..
  have hused := unitAt_pgpHistory_length hs hhi.le
  have hcount : s.ctx.count + (ct ++ [x]).length - k * s.bs = s.ctx.count + ct.length - k * s.bs + 1 := by
    rw [List.length_append, List.length_singleton]
    omega
  have hunit : unitAt s.bs k (pgpHistory s (ct ++ [x])) = unitAt s.bs k (pgpHistory s ct) ++ [x] := by
    rw [← pgpHistory_length hs] at hlo hhi
    rw [pgpHistory_append, unitAt_eq_drop hhi.le, unitAt_eq_drop (by rw [List.length_append]; exact hhi),
      List.drop_append_of_le_length hlo]
  have hset := set_used_append_drop (used := unitAt s.bs k (pgpHistory s ct)) (key := pgpKeyBlock s ct k)
    (by rw [hused, pgpKeyBlock_length hs hlo]; omega) x
  rw [hused] at hset
  have hold : (if k = 0 then s.ctx.oldCipher else unitAt s.bs (k - 1) (pgpHistory s (ct ++ [x]))) =
      if k = 0 then s.ctx.oldCipher else unitAt s.bs (k - 1) (pgpHistory s ct) := by
    cases k with
    | zero => rfl
    | succ k =>
      rw [← pgpHistory_length hs] at hlo
      rw [pgpHistory_append, Nat.add_sub_cancel, unitAt_append_left hlo]
  simp only [inBlock, hcount, hunit, hold, hset, pgpKeyBlock_append hs hlo]

/-- The keystream byte that meets byte `n` of the history, where `ct` reaches so far (rule R176). -/
def keyByte (s : State) (ct : Bytes) (n : Nat) : Byte := byteAt (pgpKeyBlock s ct (n / s.bs)) (n % s.bs)

theorem keyByte_append (hs : SlotsInv s) {n : Nat} (hn : n ≤ s.ctx.count + ct.length) (x : Bytes) :
    keyByte s (ct ++ x) n = keyByte s ct n := by
  rw [keyByte, pgpKeyBlock_append hs ((Nat.div_mul_le_self ..).trans hn), keyByte]

/-- A byte inside a message: the next keystream byte meets the input, and the ciphertext is one byte longer. -/
theorem pgpByte_inBlock (hs : SlotsInv s) (dec : Bool) (b : Byte) (hlo : k * s.bs < s.ctx.count + ct.length)
    (hhi : s.ctx.count + ct.length ≤ (k + 1) * s.bs) :
    pgpByte dec (inBlock s ct k) b =
      (inBlock s (ct ++ [keptByte dec (keyByte s ct (s.ctx.count + ct.length)) b])
          ((s.ctx.count + ct.length) / s.bs),
        [keyByte s ct (s.ctx.count + ct.length) ^^^ b]) := by
  have hle := Nat.div_mul_le_self (s.ctx.count + ct.length) s.bs
  have hlt : s.ctx.count + ct.length < ((s.ctx.count + ct.length) / s.bs + 1) * s.bs :=
    (Nat.lt_mul_div_succ _ hs.blockSizePos).trans_eq (Nat.mul_comm ..)
  rw [pgpByte_eq, pgpReady_inBlock hs hlo hhi, byteAt_inBlock hs hlt, ← Nat.mod_eq_sub_div_mul, ← keyByte,
    inBlock_append hs hle hlt]

end Message

/-! ## The whole message -/

theorem ciphertext_length {dec : Bool} {buf out : Bytes} (h : out.length = buf.length) :
    (ciphertext dec buf out).length = buf.length := by
  cases dec with
  | false => exact h
  | true => rfl

theorem ciphertext_append_singleton (dec : Bool) (buf out : Bytes) (k b : Byte) :
    ciphertext dec (buf ++ [b]) (out ++ [k ^^^ b]) = ciphertext dec buf out ++ [keptByte dec k b] := by
  cases dec <;> rfl

/-- The block that holds byte `n - 1` of the history has that byte and no byte after its end. -/
theorem block_bounds {n bs : Nat} (hn : 1 ≤ n) (hbs : 1 ≤ bs) :
    (n - 1) / bs * bs < n ∧ n ≤ ((n - 1) / bs + 1) * bs := by
  have hlo := Nat.div_mul_le_self (n - 1) bs
  have hhi : n - 1 < ((n - 1) / bs + 1) * bs := (Nat.lt_mul_div_succ _ hbs).trans_eq (Nat.mul_comm ..)
  omega

/-- A message, byte for byte, with the state after it. -/
theorem runUnits_pgpByte {s : State} (hs : SlotsInv s) (hpos : 1 ≤ s.ctx.count) (dec : Bool) (buf : Bytes)
    (f : State) :
    ∃ out : Bytes, out.length = buf.length ∧
      (∀ j, j < buf.length →
        byteAt out j = keyByte s (ciphertext dec buf out) (s.ctx.count + j) ^^^ byteAt buf j) ∧
      runUnits (pgpByte dec) buf (rephase f s) = rephase (writeOut out f)
        (inBlock s (ciphertext dec buf out) ((s.ctx.count + buf.length - 1) / s.bs)) := by
  induction buf using List.reverseRecOn with
  | nil =>
    have hblock : (s.ctx.count - 1) / s.bs = 0 := Nat.div_eq_of_lt (by have := hs.ctx.countLe; omega)
    have hct : ciphertext dec [] [] = [] := by cases dec <;> rfl
    refine ⟨[], rfl, nofun, ?_⟩
    rw [hct, List.length_nil, Nat.add_zero, hblock, inBlock_start hs, writeOut_nil, runUnits_nil]
  | append_singleton buf b ih =>
    obtain ⟨out, hlen, hbyte, hrun⟩ := ih
    have hct := ciphertext_length (dec := dec) hlen
    obtain ⟨hlo, hhi⟩ := block_bounds (n := s.ctx.count + buf.length) (by omega) hs.blockSizePos
    have hnext := pgpByte_inBlock hs dec b (hct.symm ▸ hlo) (hct.symm ▸ hhi)
    rw [hct] at hnext
    refine ⟨out ++ [keyByte s (ciphertext dec buf out) (s.ctx.count + buf.length) ^^^ b], ?_, fun j hj => ?_, ?_⟩
    · rw [List.length_append, List.length_append, hlen]
      rfl
    · rw [ciphertext_append_singleton]
      rw [List.length_append, List.length_singleton] at hj
      rw [keyByte_append hs (by omega)]
      rcases Nat.lt_succ_iff_lt_or_eq.mp hj with hlt | rfl
      · rw [byteAt_append_left (hlen ▸ hlt), byteAt_append_left hlt, hbyte j hlt]
      · rw [byteAt_append_right hlen.le, byteAt_append_right le_rfl, hlen, Nat.sub_self]
        rfl
    · rw [ciphertext_append_singleton, runUnits_append, hrun, runUnits_cons, pgpByte_rephases, hnext,
        List.length_append, ← writeOut_append]
      rfl

/-- What a PGP command that is ready answers, and the state it ends in. -/
theorem exec_pgp_inBlock {dec : Bool} {buf : Bytes} {s : State} (h : Ready dec .pgp buf s) :
    ∃ out : Bytes, out.length = buf.length ∧
      (∀ j, j < buf.length →
        byteAt out j = keyByte s (ciphertext dec buf out) (s.ctx.count + j) ^^^ byteAt buf j) ∧
      exec (crypt dec buf) s = .next (answered
        (inBlock s (ciphertext dec buf out) ((s.ctx.count + buf.length - 1) / s.bs)) 0 out) := by
  obtain ⟨-, hpos⟩ := h.slots.ctx.pgpCount h.valid h.mode
  obtain ⟨out, hlen, hbyte, hrun⟩ := runUnits_pgpByte h.slots hpos dec buf (allocate buf s)
  refine ⟨out, hlen, hbyte, ?_⟩
  rw [exec_pgp h, allocate_eq_rephase, hrun, finishRun_rephase_allocate (inBlock_dataOut ..)]

/-- Settles O58: `exec_pgp_inBlock`, with `inBlock` written out. -/
theorem pgpProcessesAMessage : Obligations.PgpProcessesAMessage := by
  intro dec s buf h
  obtain ⟨out, hlen, hbyte, hexec⟩ := exec_pgp_inBlock h
  refine ⟨out, hlen, fun j hj => (hbyte j hj).trans (BitVec.xor_comm ..), ?_⟩
  rintro _ _ rfl rfl
  rw [inBlock, ciphertext_length hlen] at hexec
  exact hexec

/-! ## SYNC -/

/-- The re-aligned register when `count` is not `PGP_FULL` (rule R181). -/
def realigned (full : Nat) (c : Context) : Context :=
  { c with iv := c.oldCipher.drop c.count ++ c.iv.take c.count, count := full }

theorem syncContext_of_ne {full bs : Nat} {c : Context} (hold : c.oldCipher.length = bs) (h : c.count ≠ full) :
    syncContext full bs c = realigned full c := by
  rw [syncContext, if_neg h, slice, List.take_of_length_le hold.le]
  rfl

/-- `SYNC` on a PGP context (rule R181). -/
theorem exec_sync_pgp {s : State} (hv : s.ctx.valid = true) (hm : s.ctx.mode = some .pgp) :
    exec .sync s = .next (answered (s.withCtx (syncContext (pgpFullValue s) s.bs s.ctx)) 0 []) := by
  simp [exec, execSync, hv, hm, complete_eq_answered]

/-- The two readings of `PGP_FULL` (rule R180). -/
theorem pgpFullValue_eq {s : State} {full : Nat} (h8 : s.params.pgpFull = .eight → full = 8)
    (hbs : s.params.pgpFull = .blockSize → full = s.bs) : pgpFullValue s = full := by
  unfold pgpFullValue
  split
  · next h => exact (h8 h).symm
  · next h => exact (hbs h).symm

theorem exec_sync_of_eq {s : State} (hv : s.ctx.valid = true) (hm : s.ctx.mode = some .pgp)
    (h : s.ctx.count = pgpFullValue s) : exec .sync s = .next (answered s 0 []) := by
  rw [exec_sync_pgp hv hm, syncContext, if_pos h]
  rfl

theorem exec_sync_of_ne {s : State} (hs : SlotsInv s) (hv : s.ctx.valid = true) (hm : s.ctx.mode = some .pgp)
    (h : s.ctx.count ≠ pgpFullValue s) :
    exec .sync s = .next (answered (s.withCtx (realigned (pgpFullValue s) s.ctx)) 0 []) := by
  rw [exec_sync_pgp hv hm, syncContext_of_ne hs.ctx.oldCipherLength h]

theorem exec_sync_offMode {s : State} (hv : s.ctx.valid = true) (hm : s.ctx.mode ≠ some .pgp) :
    exec .sync s = .next (answered s 0x00002101 []) := by
  have hraise : raise .syncOffMode s = answered s 0x00002101 [] := Encoding.raise_eq_answered_of_status rfl s
  rw [← hraise]
  simp [exec, execSync, hv, hm]

/-- Settles O36: the branches of `execSync` and of `syncContext`. -/
theorem syncRealignsTheRegister : Obligations.SyncRealignsTheRegister := by
  intro s hs
  refine ⟨fun hv => noContext_of_empty hv _, exec_sync_offMode, fun full h8 hbs hv hm => ?_⟩
  obtain rfl := pgpFullValue_eq h8 hbs
  exact ⟨exec_sync_of_eq hv hm, exec_sync_of_ne hs hv hm⟩

/-! ## The ciphertext history -/

/-- The last `u` bytes of a text that ends in its unit `k + 1` are the end of unit `k` and what there is of unit
`k + 1`. -/
theorem lastBytes_eq_units {u k : Nat} {b : Bytes} (hlo : (k + 1) * u ≤ b.length) (hhi : b.length ≤ (k + 2) * u) :
    lastBytes u b = (unitAt u k b).drop (b.length - (k + 1) * u) ++ unitAt u (k + 1) b := by
  have h1 : (k + 1) * u = k * u + u := Nat.succ_mul ..
  have h2 : (k + 2) * u = (k + 1) * u + u := Nat.succ_mul ..
  have hunits : b.drop (k * u) = unitAt u k b ++ unitAt u (k + 1) b := by
    rw [unitAt_eq_drop hhi, h1, ← List.drop_drop, unitAt, List.take_append_drop]
  have hlen : (unitAt u k b).length = u := by
    rw [unitAt, List.length_take, List.length_drop]
    omega
  rw [lastBytes, ← List.drop_append_of_le_length (by omega), ← hunits, List.drop_drop]
  congr 1
  omega

/-- A text behind one whole unit has its units one place later. -/
theorem unitAt_succ_append {u i : Nat} {a b : Bytes} (ha : a.length = u) :
    unitAt u (i + 1) (a ++ b) = unitAt u i b := by
  rw [unitAt, Nat.succ_mul, Nat.add_comm, ← List.drop_drop, ← ha, List.drop_left, unitAt]

/-- What `SYNC` puts together inside a message is the end of the ciphertext history (rule R182). -/
theorem inBlock_realigned {s : State} {ct : Bytes} {k : Nat} (hs : SlotsInv s)
    (hlo : k * s.bs < s.ctx.count + ct.length) (hhi : s.ctx.count + ct.length ≤ (k + 1) * s.bs) (full : Nat) :
    (realigned full (inBlock s ct k).ctx).iv = lastBytes s.bs (s.ctx.oldCipher ++ pgpHistory s ct) := by
  have hold := hs.ctx.oldCipherLength
  have hused := unitAt_pgpHistory_length hs hhi
  have htake : (inBlock s ct k).ctx.iv.take (inBlock s ct k).ctx.count = unitAt s.bs k (pgpHistory s ct) :=
    List.take_left' hused
  have hunit : (inBlock s ct k).ctx.oldCipher = unitAt s.bs k (s.ctx.oldCipher ++ pgpHistory s ct) := by
    cases k with
    | zero => rw [unitAt, Nat.zero_mul, List.drop_zero, List.take_left' hold]; rfl
    | succ k => rw [unitAt_succ_append hold]; rfl
  have hlen : (s.ctx.oldCipher ++ pgpHistory s ct).length = s.bs + (s.ctx.count + ct.length) := by
    rw [List.length_append, hold, pgpHistory_length hs]
  have h1 : (k + 1) * s.bs = k * s.bs + s.bs := Nat.succ_mul ..
  have h2 : (k + 2) * s.bs = (k + 1) * s.bs + s.bs := Nat.succ_mul ..
  have hcount : (inBlock s ct k).ctx.count = s.bs + (s.ctx.count + ct.length) - (k + 1) * s.bs := by
    show s.ctx.count + ct.length - k * s.bs = _
    omega
  rw [lastBytes_eq_units (k := k) (by omega) (by omega), unitAt_succ_append hold, hlen, ← hcount, ← hunit, ← htake]
  rfl

/-- Where all of the register is in use it is re-aligned already (rule R182). -/
theorem realigned_iv_of_full {bs full : Nat} {c : Context} (h : ContextInv bs c) (hfull : c.count = bs) :
    (realigned full c).iv = c.iv := by
  show c.oldCipher.drop c.count ++ c.iv.take c.count = c.iv
  rw [hfull, List.drop_of_length_le h.oldCipherLength.le, List.take_of_length_le h.ivLength.le, List.nil_append]

/-- Settles O37: the register after the message is that of `inBlock`, and `SYNC` re-aligns it, or finds `count` at
`PGP_FULL = BS`, where there is nothing to re-align. -/
theorem syncHoldsTheLastCiphertext : Obligations.SyncHoldsTheLastCiphertext := by
  intro dec s t m out full h h8 hbs hexec hok hfull
  obtain ⟨out', hlen, -, hexec'⟩ := exec_pgp_inBlock h
  have hslots : SlotsInv t := (Slots.exec_inv h.slots hexec).slots
  obtain rfl := Host.Outcome.next.inj (hexec'.symm.trans hexec)
  obtain ⟨-, rfl⟩ := (RoundTrip.answeredOk_answered rfl).mp hok
  obtain rfl := pgpFullValue_eq h8 hbs
  obtain ⟨-, hpos⟩ := h.slots.ctx.pgpCount h.valid h.mode
  obtain ⟨hlo, hhi⟩ := block_bounds (n := s.ctx.count + m.length) (by omega) h.slots.blockSizePos
  rw [← ciphertext_length (dec := dec) hlen] at hlo hhi
  have hiv := inBlock_realigned h.slots hlo hhi (pgpFullValue s)
  rw [ciphertext_length hlen] at hiv
  by_cases hc : (inBlock s (ciphertext dec m out') ((s.ctx.count + m.length - 1) / s.bs)).ctx.count = pgpFullValue s
  · have hexhausted := realigned_iv_of_full (full := pgpFullValue s) hslots.ctx (hc.trans (hfull hc))
    exact ⟨_, exec_sync_of_eq h.valid h.mode hc, ⟨rfl, rfl⟩, hc, hexhausted.symm.trans hiv⟩
  · exact ⟨_, exec_sync_of_ne hslots h.valid h.mode hc, ⟨rfl, rfl⟩, rfl, hiv⟩

end Sys2Proof.RunningRegister
end

section
/-! PROOF of O47. `refillCount_eq` counts the bytes that find the register exhausted as the number of the block in
which the message ends. That number stands in the closed form of a PGP message, and along the byte loop of CTR it is
kept by `Refilled`: `count` and the refills made say together how far the message has come. That no other request is
made is O48. -/

open Sys2Proof Sys2Proof.Machine Sys2Proof.Spec Sys2Proof.FrontEnd Sys2Proof.Splitting Sys2Proof.Slots
open Sys2Proof.Responses Sys2Proof.RunningRegister

namespace Sys2Proof.Refills

/-! ## Counting refills -/

theorem refillCount_succ (bs c0 len : Nat) :
    refillCount bs c0 (len + 1) = refillCount bs c0 len + if bs ∣ c0 + len then 1 else 0 := by
  by_cases h : bs ∣ c0 + len
  · simp [refillCount, List.range_succ, List.filter_append, h, Nat.mod_eq_zero_of_dvd h]
  · have hmod : (c0 + len) % bs ≠ 0 := mt Nat.dvd_of_mod_eq_zero h
    simp [refillCount, List.range_succ, List.filter_append, h, hmod]

/-- From a `count` between 1 and `BS`, there is one refill for each block end passed (rules R177, R285). -/
theorem refillCount_eq {bs c0 : Nat} (hpos : 1 ≤ c0) (hle : c0 ≤ bs) (len : Nat) :
    refillCount bs c0 len = (c0 + len - 1) / bs := by
  obtain ⟨c, rfl⟩ := Nat.exists_eq_add_of_le' hpos
  induction len with
  | zero => exact (Nat.div_eq_of_lt hle).symm
  | succ len ih =>
    rw [refillCount_succ, ih, ← Nat.add_assoc, Nat.add_right_comm, Nat.add_sub_cancel, Nat.add_sub_cancel,
      Nat.succ_div]

theorem pgp_enc_requests {dec : Bool} {buf : Bytes} {s t : State} (h : Ready dec .pgp buf s)
    (hexec : exec (crypt dec buf) s = .next t) :
    t.ports.enc = s.ports.enc + refillCount s.bs s.ctx.count buf.length := by
  obtain ⟨out, -, -, hexec'⟩ := exec_pgp_inBlock h
  obtain rfl := Host.Outcome.next.inj (hexec'.symm.trans hexec)
  rw [refillCount_eq (h.slots.ctx.pgpCount h.valid h.mode).2 h.slots.ctx.countLe]
  rfl

/-! ## The byte loop of CTR -/

/-- A refill that fills makes one `ENC` request, and one for a counter value where the source is external (rules R193
to R195). -/
theorem refillCtr_filled_ports {s u : State} (h : refillCtr s = .filled u) :
    u.ports.enc = s.ports.enc + 1 ∧ (s.ctx.csrc = .external → u.ports.counter = s.ports.counter + 1) := by
  unfold refillCtr at h
  split_ifs at h with hx hg hshort
  · cases hr : s.replies with
    | nil => simp [externalRefill, hr] at h
    | cons r rest =>
      rw [Waiting.externalRefill_of_cons hr] at h
      rcases acceptReply_cases r (s.noteCounter.withReplies rest) with ⟨_, he⟩ | ⟨_, _, he⟩ | ⟨_, _, _, he⟩ <;>
        rw [he] at h <;> cases h
      exact ⟨rfl, fun _ => rfl⟩
  · cases h
  · rcases shortcutRefill_cases s with ⟨_, he⟩ | ⟨_, _, he⟩ | ⟨_, _, he⟩ <;> rw [he] at h <;> cases h
    exact ⟨rfl, fun hext => absurd hext hx⟩
  · rcases genericRefill_cases s with ⟨_, he⟩ | ⟨_, _, he⟩ | ⟨_, _, he⟩ <;> rw [he] at h <;> cases h
    exact ⟨rfl, fun hext => absurd hext hx⟩

/-- The `r` refills before a byte, none or one, take `BS` off `count` each. -/
theorem ctrReady_filled_ports {s u : State} (h : ctrReady s = .filled u) (hpos : 1 ≤ s.bs)
    (hle : s.ctx.count ≤ s.bs) :
    ∃ r, u.ctx.count < s.bs ∧ u.ctx.count + r * s.bs = s.ctx.count ∧ u.ports.enc = s.ports.enc + r ∧
      (s.ctx.csrc = .external → u.ports.counter = s.ports.counter + r) := by
  unfold ctrReady at h
  split_ifs at h with hfull
  · cases hr : refillCtr s with
    | filled v =>
      rw [hr] at h
      cases h
      obtain ⟨henc, hcounter⟩ := refillCtr_filled_ports hr
      exact ⟨1, hpos, by rw [hfull, Nat.one_mul]; exact Nat.zero_add _, henc, hcounter⟩
    | raised cls cause v => rw [hr] at h; cases h
    | waiting v => rw [hr] at h; cases h
  · cases h
    exact ⟨0, lt_of_le_of_ne hle hfull, by rw [Nat.zero_mul, Nat.add_zero], rfl, fun _ => rfl⟩

/-- After `i` bytes of a CTR command begun at `s` the loop stands at `u`, having made `e` refills. -/
structure Refilled (s : State) (i e : Nat) (u : State) : Prop where
  silent : CtrSilent s u
  keeps : Keeps s u
  countPos : 1 ≤ u.ctx.count
  countLe : u.ctx.count ≤ s.bs
  count : u.ctx.count + e * s.bs = s.ctx.count + i
  enc : u.ports.enc = s.ports.enc + e
  counter : s.ctx.csrc = .external → u.ports.counter = s.ports.counter + e

theorem Refilled.next {s u v : State} {i e : Nat} (h : Refilled s i e u) (b : Byte) (rest : Bytes)
    (hr : ctrReady u = .filled v) : ∃ e', Refilled s (i + 1) e' (ctrByte b v) := by
  have hbs : u.bs = s.bs := h.keeps.bs
  obtain ⟨r, hlt, hcount, henc, hcounter⟩ :=
    ctrReady_filled_ports hr (hbs ▸ h.countPos.trans h.countLe) (hbs ▸ h.countLe)
  rw [hbs] at hlt hcount
  have hstart := h.count
  exact ⟨e + r,
    { silent := h.silent.next b rest u v hr
      keeps := (h.keeps.trans (ctrReady_filled_keeps hr)).trans (ctrByte_keeps b v)
      countPos := Nat.le_add_left 1 _
      countLe := hlt
      count := by
        show v.ctx.count + 1 + (e + r) * s.bs = _
        rw [Nat.add_mul]
        omega
      enc := henc.trans (by rw [h.enc, Nat.add_assoc])
      counter := fun hx => (hcounter (h.keeps.csrc.trans hx)).trans (by rw [h.counter hx, Nat.add_assoc]) }⟩

theorem Refilled.refills {s u : State} {i e : Nat} (h : Refilled s i e u) (hpos : 1 ≤ s.ctx.count)
    (hle : s.ctx.count ≤ s.bs) : e = refillCount s.bs s.ctx.count i := by
  have hcount := h.count
  have hcountPos := h.countPos
  have hcountLe := h.countLe
  rw [refillCount_eq hpos hle]
  refine (Nat.div_eq_of_lt_le ?_ ?_).symm
  · omega
  · rw [Nat.succ_mul]
    omega

theorem ctrRun_refills {s : State} {buf out : Bytes} (hg : GeneratorInv s.gen) (hpos : 1 ≤ s.ctx.count)
    (hle : s.ctx.count ≤ s.bs) (hok : AnsweredOk s (ctrRun buf s) out) :
    (ctrRun buf s).ports.enc = s.ports.enc + refillCount s.bs s.ctx.count buf.length ∧
    (s.ctx.csrc = .external →
      (ctrRun buf s).ports.counter = s.ports.counter + refillCount s.bs s.ctx.count buf.length) := by
  have hstart : Refilled s 0 0 s :=
    ⟨⟨hg, rfl⟩, .refl s, hpos, hle, by rw [Nat.zero_mul], rfl, fun _ => rfl⟩
  rcases ctrRun_cases (fun rest u => ∃ i e, i + rest.length = buf.length ∧ Refilled s i e u)
      (fun b rest u v ⟨i, e, hi, h⟩ hr =>
        have ⟨e', h'⟩ := h.next b rest hr
        ⟨i + 1, e', by rw [← hi, List.length_cons]; omega, h'⟩)
      buf s ⟨0, 0, Nat.zero_add _, hstart⟩ with
    ⟨u, ⟨i, e, hi, h⟩, hend⟩ | ⟨_, _, u, _, _, _, ⟨_, _, _, h⟩, hr, hend⟩ | ⟨_, _, u, _, ⟨_, _, _, h⟩, hr, hend⟩ <;>
    rw [hend] at hok ⊢
  · obtain rfl : i = buf.length := hi
    rw [← h.refills hpos hle]
    exact ⟨h.enc, h.counter⟩
  · exact absurd hok (RoundTrip.not_answeredOk_of_raised h.silent.gen.bufLength h.silent.dataOut hr)
  · exact absurd hok (RoundTrip.not_answeredOk_of_waiting h.silent.gen.bufLength hr)

theorem ctr_requests {dec : Bool} {buf out : Bytes} {s t : State} (h : Ready dec .ctr buf s)
    (hexec : exec (crypt dec buf) s = .next t) (hok : AnsweredOk s t out) :
    t.ports.enc = s.ports.enc + refillCount s.bs s.ctx.count buf.length ∧
    (s.ctx.csrc = .external →
      t.ports.counter = s.ports.counter + refillCount s.bs s.ctx.count buf.length) := by
  have hpiece : Piecewise s (cryptVariant dec .ctr) ctrRun := by cases dec <;> exact ctr_piecewise s
  obtain ⟨-, rfl⟩ := hpiece.loop_of_ok (.refl s) h.mode hexec hok
  exact ctrRun_refills (s := allocate buf s) h.slots.gen (h.slots.ctx.ctrCount h.valid h.mode)
    h.slots.ctx.countLe hok

/-! ## Both stream modes -/

theorem crypt_ne_ctxNew {dec : Bool} {buf key iv : Bytes} {mode : Byte} {csrc : CounterSource} {seg : Word} :
    crypt dec buf ≠ .ctxNew mode csrc key iv seg := by
  cases dec <;> nofun

/-- Settles O47: the requests made are those of the refills, and O48 excludes all others. -/
theorem streamModesRequestOncePerRefill : Obligations.StreamModesRequestOncePerRefill := by
  intro dec s t buf out m h hm hexec hok
  obtain ⟨-, hdec, hinit, hsource⟩ := Ports.portsAreUsedOnlyAsTheRulesSay _ s t hexec
  have hrefills : t.ports.enc = s.ports.enc + refillCount s.bs s.ctx.count buf.length ∧
      (s.ctx.csrc = .external →
        t.ports.counter = s.ports.counter + refillCount s.bs s.ctx.count buf.length) := by
    rcases hm with rfl | rfl
    · have hctr : s.ctx.csrc = .external → s.ctx.mode = some .ctr := fun hx =>
        (h.slots.ctx.counterIffCtr h.valid).mpr (by rw [hx]; nofun)
      exact ⟨pgp_enc_requests h hexec, fun hx => nomatch h.mode.symm.trans (hctr hx)⟩
    · exact ctr_requests h hexec hok
  obtain ⟨henc, hcounter⟩ := hrefills
  refine ⟨henc, ?_, ?_, ?_⟩
  · by_contra hne
    obtain ⟨-, hmode⟩ := hdec hne
    rw [h.mode] at hmode
    rcases hm with rfl | rfl <;> simp at hmode
  · by_contra hne
    obtain ⟨⟨_, _, _, _, _, hnew⟩, -⟩ := hinit hne
    exact crypt_ne_ctxNew hnew
  · split_ifs with hx
    · exact hcounter hx
    · by_contra hne
      obtain ⟨-, -, hext⟩ := hsource (.inl hne)
      exact hx hext

end Sys2Proof.Refills
end

section
/-! PROOFS of O38, O39, O41, O42. What one refill does is said once for each counter source (`refillCtr_of_external`,
`refillCtr_of_width` and their like): on the engine both protocols refuse a blocked counter and fill alike where the
width is `BS`, and differ only in what a wrong width leaves behind. O38 and O39 are one byte and one refusal read off
these; O42 carries the equation for the matching width along the byte loop, and no other mode reads the generator. -/

open Sys2Proof Sys2Proof.Machine Sys2Proof.Spec Sys2Proof.FrontEnd Sys2Proof.Slots Sys2Proof.Waiting

namespace Sys2Proof.Keystream

/-! ## One refill -/

section Refill
variable {s : State}

theorem ctrReady_of_ne (h : s.ctx.count ≠ s.bs) : ctrReady s = .filled s := if_neg h

theorem ctrReady_of_full (h : s.ctx.count = s.bs) : ctrReady s = (refillCtr s).startBlock := if_pos h

theorem refillCtr_of_external (hx : s.ctx.csrc = .external) : refillCtr s = externalRefill s := if_pos hx

theorem refillCtr_of_noReply (hx : s.ctx.csrc = .external) (hr : s.replies = []) :
    refillCtr s = .waiting (s.noteCounter.withStage .refillWait) := by
  rw [refillCtr_of_external hx]
  simp [externalRefill, hr]

theorem refillCtr_of_reply {r : CounterReply} {rest : List CounterReply} (hx : s.ctx.csrc = .external)
    (hr : s.replies = r :: rest) : refillCtr s = acceptReply r (s.noteCounter.withReplies rest) := by
  rw [refillCtr_of_external hx, externalRefill_of_cons hr]

theorem acceptReply_of_error {r : CounterReply} (h : r.cls ≠ 0) :
    acceptReply r s = .raised r.cls r.cause s := if_pos h

theorem acceptReply_of_misfit {r : CounterReply} (hc : r.cls = 0) (h : r.isBytes = false ∨ r.data.length ≠ s.bs) :
    acceptReply r s = .fails .counterShape s := by
  rcases h with h | h <;> simp [acceptReply, hc, h]

theorem acceptReply_of_good {r : CounterReply} (hc : r.cls = 0) (hb : r.isBytes = true)
    (hl : r.data.length = s.bs) : acceptReply r s = .filled (fillFrom r.data s) := by
  simp [acceptReply, hc, hb, hl]

/-- The engine is gone (rule R192). -/
theorem refillCtr_of_noEngine (hx : s.ctx.csrc ≠ .external) (hv : s.gen.valid = false) :
    refillCtr s = .fails .counterShape s := by
  simp [refillCtr, hx, hv]

/-- Both protocols ask for the carry first (rules R193, R194). -/
theorem refillCtr_of_blocked (hx : s.ctx.csrc ≠ .external) (hv : s.gen.valid = true)
    (hb : genBlocked s.gen = true) : refillCtr s = .fails .counterWrapped s := by
  simp [refillCtr, shortcutRefill, genericRefill, hx, hv, hb]

/-- Both protocols fill alike where `W = BS` (rule R197, item 4). -/
theorem refillCtr_of_width (hx : s.ctx.csrc ≠ .external) (hv : s.gen.valid = true) (hb : genBlocked s.gen = false)
    (hl : s.gen.buf.length = genWidth s.gen) (hw : genWidth s.gen = s.bs) :
    refillCtr s = .filled ((fillFrom s.gen.buf s).withGen (genIncrement s.gen)) := by
  have hshort : shortcutRefill s = .filled ((fillFrom s.gen.buf s).withGen (genIncrement s.gen)) := by
    simp [shortcutRefill, hb, hw]
  have hgeneric : genericRefill s = .filled ((fillFrom s.gen.buf s).withGen (genIncrement s.gen)) := by
    simp [genericRefill, hb, hl.trans hw]
    rfl
  simp [refillCtr, hx, hv, hshort, hgeneric]

/-- The shortcut looks at the width before it advances the generator (rule R193). -/
theorem refillCtr_of_shortcut_misfit (hx : s.ctx.csrc ≠ .external) (hv : s.gen.valid = true)
    (hb : genBlocked s.gen = false) (hw : genWidth s.gen ≠ s.bs) (hs : s.gen.shortcutEnabled = true) :
    refillCtr s = .fails .counterShape s := by
  simp [refillCtr, shortcutRefill, hx, hv, hb, hw, hs]

/-- The generic protocol invokes the generator before it looks at the length (rule R194). -/
theorem refillCtr_of_generic_misfit (hx : s.ctx.csrc ≠ .external) (hv : s.gen.valid = true)
    (hb : genBlocked s.gen = false) (hl : s.gen.buf.length = genWidth s.gen) (hw : genWidth s.gen ≠ s.bs)
    (hs : s.gen.shortcutEnabled = false) : refillCtr s = .fails .counterShape (s.withGen (genIncrement s.gen)) := by
  simp [refillCtr, genericRefill, hx, hv, hb, hl, hw, hs]

end Refill

/-! ## The first byte of a command -/

section Command
variable {dec : Bool} {b : Byte} {buf : Bytes} {s u : State}

theorem exec_ctr_byte (h : Ready dec .ctr [b] s) (hr : ctrReady (allocate [b] s) = .filled u) :
    exec (crypt dec [b]) s = .next (finishRun (ctrByte b u)) := by
  rw [exec_crypt_ctr h, ctrRun_filled b [] _ u hr, ctrRun_nil]

/-- The byte for which a refill fills the register. -/
theorem exec_ctr_filled_byte (h : Ready dec .ctr [b] s) (hfull : s.ctx.count = s.bs)
    (hr : refillCtr (allocate [b] s) = .filled u) :
    exec (crypt dec [b]) s = .next (finishRun (ctrByte b (u.withCtx (u.ctx.withCount 0)))) :=
  exec_ctr_byte h ((ctrReady_of_full (s := allocate [b] s) hfull).trans (congrArg Refill.startBlock hr))

theorem exec_ctr_raised {cls cause : Byte} (h : Ready dec .ctr buf s) (hfull : s.ctx.count = s.bs)
    (hr : refillCtr (allocate buf s) = .raised cls cause u) :
    exec (crypt dec buf) s = .next (answered u (statusWord cls cause) []) := by
  obtain ⟨b, rest, rfl⟩ := List.exists_cons_of_ne_nil h.nonempty
  have hready : ctrReady (allocate (b :: rest) s) = .raised cls cause u :=
    (ctrReady_of_full (s := allocate (b :: rest) s) hfull).trans (congrArg Refill.startBlock hr)
  rw [exec_crypt_ctr h, ctrRun_raised b rest _ u cls cause hready, raiseStatus_eq_answered]

theorem exec_ctr_waits (h : Ready dec .ctr buf s) (hfull : s.ctx.count = s.bs)
    (hr : refillCtr (allocate buf s) = .waiting u) : exec (crypt dec buf) s = .next u := by
  obtain ⟨b, rest, rfl⟩ := List.exists_cons_of_ne_nil h.nonempty
  have hready : ctrReady (allocate (b :: rest) s) = .waiting u :=
    (ctrReady_of_full (s := allocate (b :: rest) s) hfull).trans (congrArg Refill.startBlock hr)
  rw [exec_crypt_ctr h, ctrRun_waiting b rest _ u hready]

end Command

theorem ne_external_of_engine {src : CounterSource} (h : src = .engine) : src ≠ .external := by
  rw [h]
  nofun

theorem statusWord_eq_ofNat (cls cause : Byte) :
    statusWord cls cause = BitVec.ofNat 32 (cause.toNat * 256 + cls.toNat) := by
  rw [← statusWord_toNat, BitVec.ofNat_toNat, BitVec.setWidth_eq]

/-- Settles O38: the byte after no refill, after one from the engine and after a good answer. -/
theorem ctrProcessesOneByte : Obligations.CtrProcessesOneByte := by
  intro dec s b h
  refine ⟨fun hlt => ?_, fun hfull hsrc hv hb hw => ?_, fun r rest hfull hsrc hr hc hbytes hlen => ?_⟩
  · rw [exec_ctr_byte h (ctrReady_of_ne (s := allocate [b] s) hlt.ne), finishRun, complete_eq_answered]
    rfl
  · have hfill := refillCtr_of_width (s := allocate [b] s) (ne_external_of_engine hsrc) hv hb
      h.slots.gen.bufLength hw
    rw [exec_ctr_filled_byte h hfull hfill, finishRun, complete_eq_answered]
    rfl
  · have hfill := (refillCtr_of_reply (s := allocate [b] s) hsrc hr).trans (acceptReply_of_good hc hbytes hlen)
    rw [exec_ctr_filled_byte h hfull hfill, finishRun, complete_eq_answered]
    rfl

/-- Settles O39: each clause is one equation of the refill, at the first byte. -/
theorem ctrRefillRefusesAndWaits : Obligations.CtrRefillRefusesAndWaits := by
  intro dec s buf h hfull
  refine ⟨fun hsrc hv => ?_, fun hsrc hv hcarry haw => ?_, fun hsrc hv hb hw hs => ?_,
    fun hsrc hv hb hw hs => ?_, fun r rest hsrc hr hc => ?_, fun r rest hsrc hr hc hbad => ?_,
    fun hsrc hr => ?_⟩
  · exact (exec_ctr_raised h hfull
      (refillCtr_of_noEngine (s := allocate buf s) (ne_external_of_engine hsrc) hv)).trans rfl
  · have hblocked : genBlocked s.gen = true := by simp [genBlocked, hcarry, haw]
    exact (exec_ctr_raised h hfull
      (refillCtr_of_blocked (s := allocate buf s) (ne_external_of_engine hsrc) hv hblocked)).trans rfl
  · exact (exec_ctr_raised h hfull
      (refillCtr_of_shortcut_misfit (s := allocate buf s) (ne_external_of_engine hsrc) hv hb hw hs)).trans rfl
  · exact (exec_ctr_raised h hfull (refillCtr_of_generic_misfit (s := allocate buf s)
      (ne_external_of_engine hsrc) hv hb h.slots.gen.bufLength hw hs)).trans rfl
  · rw [← statusWord_eq_ofNat]
    exact (exec_ctr_raised h hfull
      ((refillCtr_of_reply (s := allocate buf s) hsrc hr).trans (acceptReply_of_error hc))).trans rfl
  · exact (exec_ctr_raised h hfull
      ((refillCtr_of_reply (s := allocate buf s) hsrc hr).trans (acceptReply_of_misfit hc hbad))).trans rfl
  · exact exec_ctr_waits h hfull (refillCtr_of_noReply (s := allocate buf s) hsrc hr)

/-! ## Both directions -/

/-- A data phase uses the column of rule R136 in the mode of the context only. -/
theorem dataPhase_congr {variant variant' : Mode → State → State} {s : State}
    (h : ∀ m, s.ctx.mode = some m → variant m = variant' m) (buf : Bytes) :
    dataPhase variant buf s = dataPhase variant' buf s := by
  cases hm : s.ctx.mode with
  | none => simp [dataPhase, hm]
  | some m => simp [dataPhase, hm, h m hm]

/-- Settles O41: the two columns of rule R136 name the same procedure in both modes, and O48 says that it requests no
`DEC`. -/
theorem ctrAndOfbDecryptIsEncrypt : Obligations.CtrAndOfbDecryptIsEncrypt := by
  intro s buf hp hm
  refine ⟨?_, fun t h => ?_⟩
  · cases hv : s.ctx.valid with
    | false => exact (exec_crypt_of_empty hv true buf).trans (exec_crypt_of_empty hv false buf).symm
    | true =>
      rw [RoundTrip.exec_decrypt_valid hv hp, RoundTrip.exec_encrypt_valid hv]
      refine dataPhase_congr (fun m hm' => ?_) buf
      rw [hm', Option.some.injEq, Option.some.injEq] at hm
      rcases hm with rfl | rfl <;> rfl
  · obtain ⟨-, hdec, -⟩ := Ports.portsAreUsedOnlyAsTheRulesSay _ s t h
    by_contra hne
    obtain ⟨-, hmode⟩ := hdec hne
    rcases hm with hm | hm <;> simp [hm] at hmode

/-! ## The two protocols of the engine -/

/-- `s` with `shortcut_enabled` set to `e`. -/
def withShortcut (e : Bool) (s : State) : State := s.withGen { s.gen with shortcutEnabled := e }

/-- The state in which a refill ends, after `f`. -/
def mapRefill (f : State → State) : Refill → Refill
  | .filled s => .filled (f s)
  | .raised cls cause s => .raised cls cause (f s)
  | .waiting s => .waiting (f s)

/-- The buffer of the generator has its width, and the width is `BS`. -/
def EngineFits (s : State) : Prop := s.gen.buf.length = genWidth s.gen ∧ genWidth s.gen = s.bs

section Protocols
variable (e : Bool)

theorem acceptReply_withShortcut (r : CounterReply) (s : State) :
    acceptReply r (withShortcut e s) = mapRefill (withShortcut e) (acceptReply r s) := by
  have hbs : (withShortcut e s).bs = s.bs := rfl
  unfold acceptReply
  rw [hbs]
  split_ifs <;> rfl

theorem externalRefill_withShortcut (s : State) :
    externalRefill (withShortcut e s) = mapRefill (withShortcut e) (externalRefill s) := by
  cases hr : s.replies with
  | nil =>
    have hr' : (withShortcut e s).replies = [] := hr
    simp only [externalRefill, hr, hr']
    rfl
  | cons r rest =>
    rw [externalRefill_of_cons hr, externalRefill_of_cons (s := withShortcut e s) hr]
    exact acceptReply_withShortcut e r (s.noteCounter.withReplies rest)

theorem refillCtr_withShortcut {s : State} (h : EngineFits s) :
    refillCtr (withShortcut e s) = mapRefill (withShortcut e) (refillCtr s) := by
  obtain ⟨hl, hw⟩ := h
  by_cases hx : s.ctx.csrc = .external
  · rw [refillCtr_of_external hx, refillCtr_of_external (s := withShortcut e s) hx, externalRefill_withShortcut]
  cases hv : s.gen.valid with
  | false => rw [refillCtr_of_noEngine hx hv, refillCtr_of_noEngine (s := withShortcut e s) hx hv]; rfl
  | true =>
    cases hb : genBlocked s.gen with
    | true => rw [refillCtr_of_blocked hx hv hb, refillCtr_of_blocked (s := withShortcut e s) hx hv hb]; rfl
    | false =>
      rw [refillCtr_of_width hx hv hb hl hw, refillCtr_of_width (s := withShortcut e s) hx hv hb hl hw]
      rfl

theorem ctrReady_withShortcut {s : State} (h : EngineFits s) :
    ctrReady (withShortcut e s) = mapRefill (withShortcut e) (ctrReady s) := by
  by_cases hfull : s.ctx.count = s.bs
  · rw [ctrReady_of_full hfull, ctrReady_of_full (s := withShortcut e s) hfull, refillCtr_withShortcut e h]
    cases refillCtr s <;> rfl
  · rw [ctrReady_of_ne hfull, ctrReady_of_ne (s := withShortcut e s) hfull]
    rfl

theorem EngineFits.ready {s u : State} (h : EngineFits s) (hr : ctrReady s = .filled u) : EngineFits u := by
  obtain ⟨hl, -, -⟩ := RoundTrip.ctrReady_filled h.1 hr
  rcases ctrReady_cases s h.1 with ⟨_, he⟩ | ⟨_, v, hf, he⟩ | ⟨_, _, _, _, _, _, he⟩ | ⟨_, _, _, he⟩ <;>
    rw [he] at hr <;> cases hr
  · exact h
  · obtain ⟨_, hgen | hgen, hparams, _⟩ := hf
    · exact ⟨hl, (congrArg genWidth hgen).trans (h.2.trans (congrArg Params.blockSize hparams).symm)⟩
    · exact ⟨hl, (congrArg genWidth hgen).trans (h.2.trans (congrArg Params.blockSize hparams).symm)⟩

theorem ctrRun_withShortcut (input : Bytes) {s : State} (h : EngineFits s) :
    ctrRun input (withShortcut e s) = withShortcut e (ctrRun input s) := by
  induction input generalizing s with
  | nil => rfl
  | cons b rest ih =>
    have hready := ctrReady_withShortcut e h
    cases hr : ctrReady s with
    | filled u =>
      rw [hr] at hready
      rw [ctrRun_filled b rest s u hr, ctrRun_filled b rest _ _ hready]
      have hu : EngineFits u := h.ready hr
      exact ih (s := ctrByte b u) hu
    | raised cls cause u =>
      rw [hr] at hready
      rw [ctrRun_raised b rest s u cls cause hr, ctrRun_raised b rest _ _ cls cause hready]
      rfl
    | waiting u =>
      rw [hr] at hready
      rw [ctrRun_waiting b rest s u hr, ctrRun_waiting b rest _ _ hready]

theorem finishUnits_withShortcut {α : Type} {unit : State → α → State × Bytes}
    (hu : ∀ s x, unit (withShortcut e s) x = (withShortcut e (unit s x).1, (unit s x).2)) (us : List α)
    (s : State) :
    finishRun (runUnits unit us (withShortcut e s)) = withShortcut e (finishRun (runUnits unit us s)) := by
  induction us generalizing s with
  | nil => rfl
  | cons x us ih =>
    rw [runUnits_cons, runUnits_cons, hu]
    exact ih (writeOut (unit s x).2 (unit s x).1)

theorem pgpReady_withShortcut (s : State) : pgpReady (withShortcut e s) = withShortcut e (pgpReady s) := by
  have hc : (withShortcut e s).ctx = s.ctx := rfl
  have hbs : (withShortcut e s).bs = s.bs := rfl
  unfold pgpReady
  rw [hc, hbs]
  split_ifs <;> rfl

/-- No mode but CTR reads the generator. -/
theorem cryptVariant_withShortcut (dec : Bool) (m : Mode) {s : State} (h : EngineFits s) :
    cryptVariant dec m (withShortcut e s) = withShortcut e (cryptVariant dec m s) := by
  have hready := pgpReady_withShortcut e
  cases dec with
  | false =>
    cases m with
    | pgp => exact finishUnits_withShortcut e (fun s b => congrArg (pgpEncReady · b) (hready s)) _ s
    | ctr => exact ctrRun_withShortcut e _ h
    | _ => exact finishUnits_withShortcut e (fun _ _ => rfl) _ s
  | true =>
    cases m with
    | pgp => exact finishUnits_withShortcut e (fun s b => congrArg (pgpDecReady · b) (hready s)) _ s
    | ctr => exact ctrRun_withShortcut e _ h
    | _ => exact finishUnits_withShortcut e (fun _ _ => rfl) _ s

theorem dataPhase_withShortcut {dec : Bool} {buf : Bytes} {s t : State} (h : EngineFits s)
    (hrun : dataPhase (cryptVariant dec) buf s = .next t) :
    dataPhase (cryptVariant dec) buf (withShortcut e s) = .next (withShortcut e t) := by
  rcases dataPhase_cases _ _ _ _ hrun with
    ⟨rfl, rfl⟩ | ⟨hne, _, hc, rfl⟩ | ⟨hne, hc, ha, rfl⟩ | ⟨hne, hc, ha, m, hm, rfl⟩
  · rfl
  · exact dataPhase_of_lengthCause (s := withShortcut e s) hne hc
  · exact dataPhase_of_allocFails (s := withShortcut e s) hne hc ha
  · rw [dataPhase_runs _ buf (withShortcut e s) m hne hm hc ha]
    exact congrArg _ (cryptVariant_withShortcut e dec m (s := allocate buf s) h)

theorem exec_crypt_withShortcut {dec : Bool} {buf : Bytes} {s t : State} (h : EngineFits s)
    (hexec : exec (crypt dec buf) s = .next t) :
    exec (crypt dec buf) (withShortcut e s) = .next (withShortcut e t) := by
  cases hv : s.ctx.valid with
  | false =>
    cases (exec_crypt_of_empty hv dec buf).symm.trans hexec
    exact exec_crypt_of_empty (s := withShortcut e s) hv dec buf
  | true =>
    by_cases hp : dec = true → s.ctx.prfMode = false
    · rw [exec_crypt hv hp] at hexec
      rw [exec_crypt (s := withShortcut e s) hv hp]
      exact dataPhase_withShortcut e h hexec
    · obtain ⟨rfl, hprf⟩ := Classical.not_imp.mp hp
      have hprf' : s.ctx.prfMode = true := by simpa using hprf
      cases (exec_decrypt_of_prfMode hv hprf' buf).symm.trans hexec
      exact exec_decrypt_of_prfMode (s := withShortcut e s) hv hprf' buf

end Protocols

/-- Settles O42: clearing the flag of the state in which it is set clears it in the outcome, and nothing else. -/
theorem shortcutAndGenericProtocolsAgree : Obligations.ShortcutAndGenericProtocolsAgree := by
  intro dec buf s t hs hw hexec
  exact exec_crypt_withShortcut false (s := withShortcut true s) ⟨hs.gen.bufLength, hw⟩ hexec

end Sys2Proof.Keystream
end

section
/-! PROOFS of O15, O43 and O59. While refills fill, the byte loop of CTR is described by the state `reg k` that `k` of
them leave (`Fills`): the state after `i` bytes is that of the block begun last, with `count` at the bytes of it in use
(`afterBytes`), and byte `j` meets keystream byte `j mod BS` of `reg (j div BS + 1)`. O59 and O43 give the two closed
forms of `reg`, the answers taken (`afterAnswers`) and the generator counted up (`countedUp`). O15 stops the loop at
the refill that raises, the bytes before it having passed (`Consumed`). -/

open Sys2Proof Sys2Proof.Machine Sys2Proof.Spec Sys2Proof.FrontEnd Sys2Proof.Splitting Sys2Proof.BlockModes
open Sys2Proof.Keystream

namespace Sys2Proof.CounterMode

/-! ## The byte loop through a buffer -/

/-- `s` with `n` bytes of the register in use. -/
def withCount (n : Nat) (s : State) : State := s.withCtx (s.ctx.withCount n)

theorem passes_nil (s : State) : Passes ctrRun [] [] s s := fun f rest => by
  rw [writeOut_nil]
  rfl

/-- One byte further. -/
theorem passes_byte {a out : Bytes} {s w u : State} (h : Passes ctrRun a out s w) (hr : ctrReady w = .filled u)
    (b : Byte) :
    Passes ctrRun (a ++ [b]) (out ++ [b ^^^ byteAt u.ctx.iv u.ctx.count]) s (withCount (u.ctx.count + 1) u) := by
  intro f rest
  calc ctrRun (a ++ [b] ++ rest) (rephase f s)
      = ctrRun (b :: rest) (rephase (writeOut out f) w) := by rw [List.append_assoc]; exact h f (b :: rest)
    _ = ctrRun rest (ctrByte b (rephase (writeOut out f) u)) := ctrRun_filled _ _ _ _ (ctrReady_rephase _ hr)
    _ = ctrRun rest (rephase (writeOut (out ++ [b ^^^ byteAt u.ctx.iv u.ctx.count]) f)
          (withCount (u.ctx.count + 1) u)) := by rw [← writeOut_append]; rfl

/-- A command on a buffer that the loop passes succeeds, where a longer one reaches its data phase. -/
theorem exec_ctr_of_passes {dec : Bool} {buf a out : Bytes} {s w : State} (h : Ready dec .ctr buf s)
    (hle : a.length ≤ buf.length) (hpass : Passes ctrRun a out s w) (hd : w.dataOut = s.dataOut) :
    exec (crypt dec a) s = .next (answered w 0 out) := by
  have hpiece : Piecewise s (cryptVariant dec .ctr) ctrRun := by cases dec <;> exact ctr_piecewise s
  have hcause : lengthCause s.ctx s.bs a.length = none := by simp [lengthCause, h.mode]
  rw [hpiece.exec_eq h.mode h.valid h.mayDecrypt hcause fun cap hcap => hle.trans (h.fits cap hcap),
    allocate_eq_rephase, hpass.finishes ctrRun_nil, finishRun_rephase_allocate hd]

/-! ## A whole message -/

/-- From `s`, where the register is exhausted, the first `n` refills fill: `reg k` is the state with `k` of them made
and every block used up. -/
structure Fills (s : State) (n : Nat) (reg : Nat → State) : Prop where
  start : reg 0 = s
  exhausted : ∀ k, (reg k).ctx.count = s.bs
  bs : ∀ k, (reg k).bs = s.bs
  dataOut : ∀ k, (reg k).dataOut = s.dataOut
  next : ∀ k, k < n → refillCtr (reg k) = .filled (reg (k + 1))

/-- The state after `i` bytes of a message that begins with the register exhausted. -/
def afterBytes (bs : Nat) (reg : Nat → State) (i : Nat) : State :=
  withCount ((i + bs - 1) % bs + 1) (reg ((i + bs - 1) / bs))

/-- What a message of CTR makes of its bytes (rule R190). -/
def ctrOutput (bs : Nat) (reg : Nat → State) (buf : Bytes) : Bytes :=
  buf.mapIdx fun j b => b ^^^ byteAt (reg (j / bs + 1)).ctx.iv (j % bs)

theorem byteAt_ctrOutput {bs : Nat} {reg : Nat → State} {buf : Bytes} {j : Nat} (hj : j < buf.length) :
    byteAt (ctrOutput bs reg buf) j = byteAt buf j ^^^ byteAt (reg (j / bs + 1)).ctx.iv (j % bs) := by
  have hj' : j < (ctrOutput bs reg buf).length := by rwa [ctrOutput, List.length_mapIdx]
  rw [byteAt_of_lt _ _ hj', byteAt_of_lt _ _ hj]
  simp [ctrOutput]

theorem afterBytes_succ {bs : Nat} (hpos : 0 < bs) (reg : Nat → State) (i : Nat) :
    afterBytes bs reg (i + 1) = withCount (i % bs + 1) (reg (i / bs + 1)) := by
  rw [afterBytes, Nat.add_right_comm, Nat.add_sub_cancel, Nat.add_mod_right, Nat.add_div_right _ hpos]

/-- After whole blocks the block begun last is used up. -/
theorem afterBytes_of_dvd {bs i : Nat} (hpos : 0 < bs) (h : i % bs = 0) (reg : Nat → State) :
    afterBytes bs reg i = withCount bs (reg (i / bs)) := by
  have hi := Nat.div_add_mod i bs
  obtain ⟨hdiv, hmod⟩ := (Nat.div_mod_unique (a := i + bs - 1) (d := i / bs) (c := bs - 1) hpos).mpr
    ⟨by omega, by omega⟩
  rw [afterBytes, hdiv, hmod, Nat.sub_add_cancel hpos]

/-- Inside a block the bytes of it so far are in use. -/
theorem afterBytes_of_not_dvd {bs i : Nat} (hpos : 0 < bs) (h : i % bs ≠ 0) (reg : Nat → State) :
    afterBytes bs reg i = withCount (i % bs) (reg (i / bs + 1)) := by
  have hi := Nat.div_add_mod i bs
  have hlt := Nat.mod_lt i hpos
  obtain ⟨hdiv, hmod⟩ := (Nat.div_mod_unique (a := i + bs - 1) (d := i / bs + 1) (c := i % bs - 1) hpos).mpr
    ⟨by rw [Nat.mul_succ]; omega, by omega⟩
  rw [afterBytes, hdiv, hmod, Nat.sub_add_cancel (Nat.pos_of_ne_zero h)]

section Message
variable {s : State} {n : Nat} {reg : Nat → State}

theorem Fills.withCount_bs (h : Fills s n reg) (k : Nat) : withCount s.bs (reg k) = reg k := by
  rw [← h.exhausted k]
  rfl

/-- Byte `i` finds its keystream in block `i div BS`, which is fetched for it where the block begins with it. -/
theorem Fills.ctrReady_afterBytes (h : Fills s n reg) (hpos : 0 < s.bs) {i : Nat} (hi : i / s.bs < n) :
    ctrReady (afterBytes s.bs reg i) = .filled (withCount (i % s.bs) (reg (i / s.bs + 1))) := by
  by_cases hmod : i % s.bs = 0
  · have hfull : (reg (i / s.bs)).ctx.count = (reg (i / s.bs)).bs := (h.exhausted _).trans (h.bs _).symm
    rw [afterBytes_of_dvd hpos hmod, h.withCount_bs, ctrReady_of_full hfull, h.next _ hi, hmod]
    rfl
  · rw [afterBytes_of_not_dvd hpos hmod]
    exact ctrReady_of_ne ((Nat.mod_lt i hpos).trans_eq (h.bs _).symm).ne

theorem Fills.passes (h : Fills s n reg) (hpos : 0 < s.bs) (buf : Bytes)
    (hn : (buf.length + s.bs - 1) / s.bs ≤ n) :
    Passes ctrRun buf (ctrOutput s.bs reg buf) s (afterBytes s.bs reg buf.length) := by
  induction buf using List.reverseRecOn with
  | nil =>
    have hstart : afterBytes s.bs reg 0 = s := by
      rw [afterBytes_of_dvd hpos (Nat.zero_mod _), h.withCount_bs, Nat.zero_div, h.start]
    rw [List.length_nil, hstart]
    exact passes_nil s
  | append_singleton buf b ih =>
    rw [List.length_append, List.length_singleton] at hn ⊢
    have hi : buf.length / s.bs < n := by
      rwa [Nat.add_right_comm, Nat.add_sub_cancel, Nat.add_div_right _ hpos] at hn
    have hprev := ih ((Nat.div_le_div_right (by omega)).trans hn)
    rw [afterBytes_succ hpos, ctrOutput, List.mapIdx_concat]
    exact passes_byte hprev (h.ctrReady_afterBytes hpos hi) b

/-- What a CTR command answers whose every refill fills, and the state it ends in. -/
theorem exec_ctr_of_fills {dec : Bool} {buf : Bytes} (h : Ready dec .ctr buf s)
    (hfills : Fills s ((buf.length + s.bs - 1) / s.bs) reg) :
    exec (crypt dec buf) s
      = .next (answered (afterBytes s.bs reg buf.length) 0 (ctrOutput s.bs reg buf)) :=
  exec_ctr_of_passes h le_rfl (hfills.passes h.slots.blockSizePos buf le_rfl) (hfills.dataOut _)

end Message

/-! ## The external source -/

/-- The state after the first `k` answers, with the blocks `blocks`, were taken for a block each (rule R195). -/
def afterAnswers (s : State) (blocks : List Bytes) (k : Nat) : State :=
  { s with
    ctx := { s.ctx with iv := heldBefore s.ctx.iv (fun i => cipherEnc s.ctx.st (blocks.getD i [])) k }
    replies := s.replies.drop k
    ports := { s.ports with enc := s.ports.enc + k, counter := s.ports.counter + k } }

theorem refillCtr_afterAnswers {s : State} {rs rest : List CounterReply} (hx : s.ctx.csrc = .external)
    (hreplies : s.replies = rs ++ rest)
    (hgood : ∀ r ∈ rs, r.cls = 0 ∧ r.isBytes = true ∧ r.data.length = s.bs) {k : Nat} (hk : k < rs.length) :
    refillCtr (afterAnswers s (rs.map CounterReply.data) k)
      = .filled (afterAnswers s (rs.map CounterReply.data) (k + 1)) := by
  have hnext : s.replies.drop k = rs[k] :: s.replies.drop (k + 1) := by
    have hk' : k < s.replies.length := by rw [hreplies, List.length_append]; omega
    rw [List.drop_eq_getElem_cons hk']
    congr 1
    simp [hreplies, hk]
  have hblock : (rs.map CounterReply.data).getD k [] = rs[k].data := by
    simp [List.getD_eq_getElem?_getD, hk]
  obtain ⟨hcls, hbytes, hlen⟩ := hgood rs[k] (List.getElem_mem hk)
  rw [refillCtr_of_reply (s := afterAnswers s _ k) hx hnext, acceptReply_of_good hcls hbytes (by exact hlen)]
  simp only [afterAnswers, heldBefore, hblock]
  rfl

/-- Settles O59: `exec_ctr_of_fills` with the answers as the counter blocks. -/
theorem ctrOnAnExternalSourceProcessesAMessage : Obligations.CtrOnAnExternalSourceProcessesAMessage := by
  intro dec s buf rs rest h hfull hx hreplies hlen hgood
  have hfills : Fills s ((buf.length + s.bs - 1) / s.bs) (afterAnswers s (rs.map CounterReply.data)) :=
    { start := rfl
      exhausted := fun _ => hfull
      bs := fun _ => rfl
      dataOut := fun _ => rfl
      next := fun _ hk => refillCtr_afterAnswers hx hreplies hgood (hlen ▸ hk) }
  refine ⟨ctrOutput s.bs (afterAnswers s (rs.map CounterReply.data)) buf, (exec_ctr_of_fills h hfills).trans ?_,
    List.length_mapIdx, fun j hj => byteAt_ctrOutput hj⟩
  have hbegun : 0 < rs.length := by
    have hbuf := List.length_pos_iff.mpr h.nonempty
    exact hlen ▸ Nat.div_pos (by omega) h.slots.blockSizePos
  have hheld (f : Nat → Bytes) : heldBefore s.ctx.iv f rs.length = f (rs.length - 1) := by
    rw [← Nat.sub_add_cancel hbegun]
    rfl
  have hleft : s.replies.drop rs.length = rest := by rw [hreplies, List.drop_left]
  simp only [afterBytes, ← hlen, afterAnswers, hheld, hleft]
  rfl

/-! ## Values as integers -/

theorem leBytes_length (n k : Nat) : (leBytes n k).length = n := by
  induction n generalizing k with
  | zero => rfl
  | succ n ih => rw [leBytes, List.length_cons, ih]

theorem leNat_leBytes (n k : Nat) : leNat (leBytes n k) = k % 256 ^ n := by
  induction n generalizing k with
  | zero => simp [leBytes, Nat.mod_one]
  | succ n ih =>
    rw [leBytes, leNat_cons, ih, Nat.pow_succ', Nat.mod_mul, BitVec.toNat_ofNat, Nat.mod_mod]

theorem leBytes_leNat (v : Bytes) : leBytes v.length (leNat v) = v := by
  induction v with
  | nil => rfl
  | cons b v ih =>
    have hb : b.toNat < 256 := b.isLt
    have hmod : (b.toNat + 256 * leNat v) % 256 = b.toNat := by omega
    have hdiv : (b.toNat + 256 * leNat v) / 256 = leNat v := by omega
    rw [List.length_cons, leNat_cons, leBytes, hmod, hdiv, ih, BitVec.ofNat_toNat, BitVec.setWidth_eq]

/-- The byte loop of the increment adds its carry-in to the integer (rule R221). -/
theorem rippleCarry_leBytes (n k c : Nat) : (rippleCarry c (leBytes n k)).1 = leBytes n (k + c) := by
  induction n generalizing k c with
  | zero => rfl
  | succ n ih =>
    have hbyte : (BitVec.ofNat 8 (k % 256)).toNat = k % 256 := by
      rw [BitVec.toNat_ofNat]
      exact Nat.mod_mod k 256
    have hmod : (k % 256 + c) % 256 = (k + c) % 256 := Nat.mod_add_mod k 256 c
    have hdiv : k / 256 + (k % 256 + c) / 256 = (k + c) / 256 := by omega
    rw [leBytes, rippleCarry, leBytes]
    simp only [hbyte, hmod, ih, hdiv]

/-- No carry comes out below the top of the range. -/
theorem rippleCarry_leBytes_carry {n k : Nat} (h : k + 1 < 256 ^ n) : (rippleCarry 1 (leBytes n k)).2 = 0 := by
  have hsum := rippleCarry_sum 1 (leBytes n k)
  rw [rippleCarry_leBytes, leNat_leBytes, leNat_leBytes, leBytes_length, Nat.mod_eq_of_lt h,
    Nat.mod_eq_of_lt (Nat.lt_of_succ_lt h)] at hsum
  have hzero : 256 ^ n * (rippleCarry 1 (leBytes n k)).2 = 0 := by omega
  exact (Nat.mul_eq_zero.mp hzero).resolve_left (Nat.pow_pos (by decide)).ne'

theorem encodeValue_length (e : Endianness) (n k : Nat) : (encodeValue e n k).length = n := by
  cases e <;> simp [encodeValue, leBytes_length]

/-- A value written from its integer (rules R15, R222). -/
theorem encodeValue_valueNat (e : Endianness) (v : Bytes) : encodeValue e v.length (valueNat e v) = v := by
  cases e with
  | little => exact leBytes_leNat v
  | big =>
    have hrev := leBytes_leNat v.reverse
    rw [List.length_reverse] at hrev
    rw [encodeValue, valueNat, beNat_eq_leNat_reverse, hrev, List.reverse_reverse]

theorem incrementValue_encodeValue (e : Endianness) (n k : Nat) :
    (incrementValue e (encodeValue e n k)).1 = encodeValue e n (k + 1) := by
  cases e <;> simp [incrementValue, encodeValue, rippleCarry_leBytes]

theorem incrementValue_carry_encodeValue (e : Endianness) {n k : Nat} (h : k + 1 < 256 ^ n) :
    (incrementValue e (encodeValue e n k)).2 = false := by
  cases e <;> simp [incrementValue, encodeValue, rippleCarry_leBytes_carry h]

/-! ## The generator counted up -/

/-- The integer of the value of a generator. -/
def genInt (g : Generator) : Nat := valueNat g.endianness (genValue g)

/-- The carry after `k` increments. -/
def carryAfter (g : Generator) : Nat → Bool
  | 0 => g.carry
  | k + 1 => (incrementValue g.endianness (encodeValue g.endianness g.n (genInt g + k))).2

/-- The generator after `k` increments (rule R222). -/
def countedUp (g : Generator) (k : Nat) : Generator :=
  { g with buf := counterBlock g (genInt g + k), carry := carryAfter g k }

theorem countedUp_buf (g : Generator) (k : Nat) : (countedUp g k).buf =
    genPrefix g ++ encodeValue g.endianness g.n (genInt g + k) ++ genSuffix g := rfl

section Counted
variable {g : Generator}

theorem countedUp_zero (hl : g.buf.length = genWidth g) : countedUp g 0 = g := by
  have hvalue : encodeValue g.endianness g.n (genInt g) = genValue g := by
    rw [← genValue_length g hl]
    exact encodeValue_valueNat g.endianness (genValue g)
  have hbuf : counterBlock g (genInt g + 0) = g.buf := by
    rw [Nat.add_zero, counterBlock, hvalue, genBuf_split]
  rw [countedUp, hbuf]
  rfl

/-- The three parts of the buffer, of which only the value counts. -/
theorem countedUp_parts (hl : g.buf.length = genWidth g) (k : Nat) :
    genPrefix (countedUp g k) = genPrefix g ∧
    genValue (countedUp g k) = encodeValue g.endianness g.n (genInt g + k) ∧
    genSuffix (countedUp g k) = genSuffix g := by
  have hp := genPrefix_length g hl
  have hv := encodeValue_length g.endianness g.n (genInt g + k)
  refine ⟨?_, ?_, ?_⟩
  · rw [genPrefix, countedUp_buf, List.append_assoc]
    exact List.take_left' hp
  · rw [genValue, countedUp_buf, List.append_assoc, List.drop_left' (by exact hp)]
    exact List.take_left' hv
  · rw [genSuffix, countedUp_buf]
    exact List.drop_left' (by rw [List.length_append, hp, hv]; rfl)

theorem countedUp_length (hl : g.buf.length = genWidth g) (k : Nat) :
    (countedUp g k).buf.length = genWidth (countedUp g k) := by
  rw [countedUp_buf, List.length_append, List.length_append, genPrefix_length g hl, encodeValue_length,
    genSuffix_length g hl]
  rfl

theorem genIncrement_countedUp (hl : g.buf.length = genWidth g) (k : Nat) :
    genIncrement (countedUp g k) = countedUp g (k + 1) := by
  obtain ⟨hp, hv, hq⟩ := countedUp_parts hl k
  have hend : (countedUp g k).endianness = g.endianness := rfl
  rw [genIncrement, hp, hv, hq, hend, incrementValue_encodeValue]
  rfl

/-- The counter is not asked for a value past its wrap, or may wrap (rule R48). -/
theorem countedUp_unblocked (hb : genBlocked g = false) {k n : Nat} (hk : k < n)
    (hroom : g.allowWraparound = true ∨ genInt g + n ≤ 256 ^ g.n) : genBlocked (countedUp g k) = false := by
  rcases hroom with haw | hroom
  · simp [genBlocked, countedUp, haw]
  · cases k with
    | zero => exact hb
    | succ k =>
      have hcarry : carryAfter g (k + 1) = false :=
        incrementValue_carry_encodeValue g.endianness (by omega)
      simp [genBlocked, countedUp, hcarry]

end Counted

/-- The state after `k` refills from the engine (rules R193, R194). -/
def afterCounts (s : State) (k : Nat) : State :=
  { s with
    ctx := { s.ctx with
             iv := heldBefore s.ctx.iv (fun i => cipherEnc s.ctx.st (counterBlock s.gen (genInt s.gen + i))) k }
    gen := countedUp s.gen k
    ports := { s.ports with enc := s.ports.enc + k } }

theorem refillCtr_afterCounts {s : State} (hx : s.ctx.csrc ≠ .external) (hv : s.gen.valid = true)
    (hl : s.gen.buf.length = genWidth s.gen) (hw : genWidth s.gen = s.bs) {k : Nat}
    (hb : genBlocked (countedUp s.gen k) = false) : refillCtr (afterCounts s k) = .filled (afterCounts s (k + 1)) := by
  rw [refillCtr_of_width (s := afterCounts s k) hx hv hb (countedUp_length hl k) hw]
  have hinc : genIncrement (afterCounts s k).gen = countedUp s.gen (k + 1) := genIncrement_countedUp hl k
  rw [hinc]
  rfl

/-- Settles O43: `exec_ctr_of_fills` with the generator counting up. -/
theorem ctrKeystreamEncryptsTheCounter : Obligations.CtrKeystreamEncryptsTheCounter := by
  intro dec s buf h hfull hsrc hv hb hw hroom
  have hl := h.slots.gen.bufLength
  have hstart : afterCounts s 0 = s := by
    rw [afterCounts, countedUp_zero hl]
    rfl
  have hfills : Fills s ((buf.length + s.bs - 1) / s.bs) (afterCounts s) :=
    { start := hstart
      exhausted := fun _ => hfull
      bs := fun _ => rfl
      dataOut := fun _ => rfl
      next := fun _ hk =>
        refillCtr_afterCounts (ne_external_of_engine hsrc) hv hl hw (countedUp_unblocked hb hk hroom) }
  obtain ⟨hp, hvalue, hq⟩ := countedUp_parts hl ((buf.length + s.bs - 1) / s.bs)
  exact ⟨_, _, exec_ctr_of_fills h hfills, ⟨rfl, rfl⟩, List.length_mapIdx, fun j hj => byteAt_ctrOutput hj,
    hvalue, hp, hq, rfl, rfl⟩

/-! ## A refill that raises -/

/-- The refill from the engine by the generic protocol with a width other than `BS`, which fails after it has advanced
the generator (rule R194). -/
def AdvancesInVain (s : State) : Prop :=
  s.ctx.csrc = .engine ∧ s.gen.shortcutEnabled = false ∧ genWidth s.gen ≠ s.bs ∧ s.gen.valid = true ∧
    genBlocked s.gen = false

/-- What a refill leaves in the generator slot: one that fills advances a generator whose width is `BS` or none at all,
and one that raises advances it in that one case (rules R192 to R196). -/
theorem refillCtr_gen {s : State} (hl : s.gen.buf.length = genWidth s.gen) (hsrc : s.ctx.csrc ≠ .none) :
    (∃ u, refillCtr s = .filled u ∧ (u.gen = s.gen ∨ genWidth s.gen = s.bs ∧ u.gen = genIncrement s.gen)) ∨
    (∃ cls cause u, refillCtr s = .raised cls cause u ∧
      (AdvancesInVain s → u.gen = genIncrement s.gen) ∧ (¬ AdvancesInVain s → u.gen = s.gen)) ∨
    (∃ u, refillCtr s = .waiting u) := by
  have unchanged {cls cause : Byte} {u : State} (he : refillCtr s = .raised cls cause u) (hg : u.gen = s.gen)
      (hn : ¬ AdvancesInVain s) : ∃ cls cause u, refillCtr s = .raised cls cause u ∧
        (AdvancesInVain s → u.gen = genIncrement s.gen) ∧ (¬ AdvancesInVain s → u.gen = s.gen) :=
    ⟨cls, cause, u, he, fun h => absurd h hn, fun _ => hg⟩
  by_cases hx : s.ctx.csrc = .external
  · have hn : ¬ AdvancesInVain s := fun h => ne_external_of_engine h.1 hx
    cases hr : s.replies with
    | nil => exact .inr (.inr ⟨_, refillCtr_of_noReply hx hr⟩)
    | cons r rest =>
      have htaken := refillCtr_of_reply hx hr
      rcases acceptReply_cases r (s.noteCounter.withReplies rest) with ⟨_, he⟩ | ⟨_, _, he⟩ | ⟨_, _, _, he⟩
      · exact .inr (.inl (unchanged (htaken.trans he) rfl hn))
      · exact .inr (.inl (unchanged (htaken.trans he) rfl hn))
      · exact .inl ⟨_, htaken.trans he, .inl rfl⟩
  have hengine : s.ctx.csrc = .engine := by
    cases hc : s.ctx.csrc with
    | none => exact absurd hc hsrc
    | engine => rfl
    | external => exact absurd hc hx
  cases hv : s.gen.valid with
  | false => exact .inr (.inl (unchanged (refillCtr_of_noEngine hx hv) rfl (by simp [AdvancesInVain, hv])))
  | true =>
    cases hb : genBlocked s.gen with
    | true => exact .inr (.inl (unchanged (refillCtr_of_blocked hx hv hb) rfl (by simp [AdvancesInVain, hb])))
    | false =>
      by_cases hw : genWidth s.gen = s.bs
      · exact .inl ⟨_, refillCtr_of_width hx hv hb hl hw, .inr ⟨hw, rfl⟩⟩
      cases hs : s.gen.shortcutEnabled with
      | true =>
        exact .inr (.inl (unchanged (refillCtr_of_shortcut_misfit hx hv hb hw hs) rfl (by simp [AdvancesInVain, hs])))
      | false =>
        have hvain : AdvancesInVain s := ⟨hengine, hs, hw, hv, hb⟩
        exact .inr (.inl ⟨_, _, _, refillCtr_of_generic_misfit hx hv hb hl hw hs, fun _ => rfl,
          fun hn => absurd hvain hn⟩)

theorem ctrReady_eq_raised {s u : State} {cls cause : Byte} (h : ctrReady s = .raised cls cause u) :
    s.ctx.count = s.bs ∧ refillCtr s = .raised cls cause u := by
  by_cases hfull : s.ctx.count = s.bs
  · rw [ctrReady_of_full hfull] at h
    refine ⟨hfull, ?_⟩
    cases hr : refillCtr s <;> rw [hr] at h <;> cases h
    rfl
  · rw [ctrReady_of_ne hfull] at h
    cases h

/-! ## The bytes consumed before it -/

/-- The byte loop of a CTR command on `buf` from `s` stands at `u` with `rest` still to come. -/
structure Consumed (s : State) (buf rest : Bytes) (u : State) : Prop where
  silent : Responses.CtrSilent s u
  keeps : Slots.Keeps s u
  gen : u.gen = s.gen ∨ genWidth s.gen = s.bs ∧ genWidth u.gen = s.bs
  passed : ∃ a out, buf = a ++ rest ∧ Passes ctrRun a out s u

section Consumed
variable {s u v : State} {buf rest : Bytes}

theorem consumed_allocate (hs : SlotsInv s) (buf : Bytes) : Consumed s buf buf (allocate buf s) where
  silent := ⟨hs.gen, rfl⟩
  keeps := Slots.allocate_keeps buf s
  gen := .inl rfl
  passed := ⟨[], [], rfl, passes_nil s⟩

/-- A byte that gets its keystream leaves the generator, or one of the width of a block. -/
theorem Consumed.ready_gen (h : Consumed s buf rest u) (hsrc : s.ctx.csrc ≠ .none) (hr : ctrReady u = .filled v) :
    v.gen = s.gen ∨ genWidth s.gen = s.bs ∧ genWidth v.gen = s.bs := by
  by_cases hfull : u.ctx.count = u.bs
  · rw [ctrReady_of_full hfull] at hr
    rcases refillCtr_gen h.silent.gen.bufLength (h.keeps.csrc ▸ hsrc) with
      ⟨w, he, hgen⟩ | ⟨_, _, _, he, _⟩ | ⟨_, he⟩ <;>
      rw [he] at hr <;> cases hr
    rcases hgen with hgen | ⟨hwidth, hgen⟩
    · rw [State.withCtx_gen, hgen]
      exact h.gen
    · refine .inr ⟨?_, ?_⟩
      · rcases h.gen with heq | ⟨hs, _⟩
        · rw [← heq, hwidth, h.keeps.bs]
        · exact hs
      · rw [State.withCtx_gen, hgen, ← h.keeps.bs, ← hwidth]
        rfl
  · rw [ctrReady_of_ne hfull] at hr
    cases hr
    exact h.gen

theorem Consumed.next (hsrc : s.ctx.csrc ≠ .none) (b : Byte) (rest : Bytes) (u v : State)
    (h : Consumed s buf (b :: rest) u) (hr : ctrReady u = .filled v) : Consumed s buf rest (ctrByte b v) where
  silent := h.silent.next b rest u v hr
  keeps := (h.keeps.trans (Slots.ctrReady_filled_keeps hr)).trans (Slots.ctrByte_keeps b v)
  gen := (h.ready_gen hsrc hr :)
  passed := by
    obtain ⟨a, out, hbuf, hpass⟩ := h.passed
    exact ⟨a ++ [b], _, by rw [hbuf, List.append_assoc]; rfl, passes_byte hpass hr b⟩

theorem Consumed.advancesInVain_iff (h : Consumed s buf rest u) : AdvancesInVain u ↔ AdvancesInVain s := by
  rcases h.gen with heq | ⟨hs, hu⟩
  · simp [AdvancesInVain, heq, h.keeps.csrc, h.keeps.bs]
  · simp [AdvancesInVain, hs, hu, h.keeps.bs]

end Consumed

theorem answeredError_answered {s u : State} {status : Word} {result : Bytes} (hd : u.dataOut = s.dataOut)
    (h : AnsweredError s (answered u status result)) : status ≠ 0 := by
  obtain ⟨-, r, hr, hne⟩ := h
  rw [Slots.answered_dataOut, hd, List.append_cancel_left_eq, List.singleton_inj] at hr
  rwa [← hr] at hne

/-- Settles O15: an error is answered where a refill raises, and the bytes before it are a command of their own. -/
theorem failedCtrCommandKeepsTheConsumedPrefix : Obligations.FailedCtrCommandKeepsTheConsumedPrefix := by
  intro dec buf s t h hexec herror
  have hsrc : s.ctx.csrc ≠ .none := (h.slots.ctx.counterIffCtr h.valid).mp h.mode
  rw [Waiting.exec_crypt_ctr h] at hexec
  obtain rfl := Host.Outcome.next.inj hexec
  rcases ctrRun_cases (Consumed s buf) (Consumed.next hsrc) buf _ (consumed_allocate h.slots buf) with
    ⟨u, hu, hend⟩ | ⟨b, left, u, cls, cause, v, hu, hr, hend⟩ | ⟨b, left, u, v, hu, hr, hend⟩ <;>
    rw [hend] at herror ⊢
  · rw [finishRun, complete_eq_answered] at herror
    exact absurd rfl (answeredError_answered hu.silent.dataOut herror)
  · obtain ⟨a, out, rfl, hpass⟩ := hu.passed
    obtain ⟨hfull, hrefill⟩ := ctrReady_eq_raised hr
    have hl := hu.silent.gen.bufLength
    have hraised : RaisedFrom u v := by
      rcases refillCtr_cases u hl with ⟨_, he, _⟩ | ⟨_, _, _, he, _, hf⟩ | ⟨_, he, _⟩ <;>
        rw [he] at hrefill <;> cases hrefill
      exact hf
    obtain ⟨hctx, -, -, -, -, -, -, -, hdata⟩ := hraised
    have hgen : (AdvancesInVain u → v.gen = genIncrement u.gen) ∧ (¬ AdvancesInVain u → v.gen = u.gen) := by
      rcases refillCtr_gen hl (hu.keeps.csrc ▸ hsrc) with ⟨_, he, _⟩ | ⟨_, _, _, he, hg⟩ | ⟨_, he⟩ <;>
        rw [he] at hrefill <;> cases hrefill
      exact hg
    rw [hu.advancesInVain_iff] at hgen
    have hcount : v.ctx.count = s.bs := by rw [hctx, hfull, hu.keeps.bs]
    have hconsumed : exec (crypt dec a) s = .next (answered u 0 out) :=
      exec_ctr_of_passes h (by simp) hpass hu.silent.dataOut
    refine ⟨a.length, answered u 0 out, out, statusWord cls cause, by simp, ?_, ?_, hctx, hcount, ?_, hgen⟩
    · rw [List.take_left, hconsumed]
    · exact (RoundTrip.answeredOk_answered hu.silent.dataOut).mpr ⟨rfl, rfl⟩
    · rw [raiseStatus_dataOut, hdata, hu.silent.dataOut]
  · have hwait := Responses.ctrReady_waiting_stage hu.silent.gen hr
    exact nomatch hwait.symm.trans herror.1

end Sys2Proof.CounterMode
end

section
/-! PROOFS of O22, O24, O25: setting `prf_mode` and the four reads. On an empty slot all of them are
`noContext_of_empty`; on a valid one a read answers its result over the state as it stands (`contextRead_of_valid`). -/

open Sys2Proof Sys2Proof.Machine Sys2Proof.Spec Sys2Proof.FrontEnd

namespace Sys2Proof.Introspection

theorem contextRead_of_valid {s : State} (hv : s.ctx.valid = true) (result : Bytes) :
    contextRead result s = .next (answered s 0 result) := by
  simp [contextRead, hv, complete_eq_answered]

theorem execSetPrf_of_valid {s : State} (hv : s.ctx.valid = true) (v : Bool) :
    execSetPrf v s = .next (answered (s.withCtx (s.ctx.withPrfMode v)) 0 []) := by
  simp [execSetPrf, hv, complete_eq_answered]

/-- Settles O22: the two branches of `execSetPrf`. -/
theorem setPrfSetsTheFlag : Obligations.SetPrfSetsTheFlag := fun _ v =>
  ⟨fun hv => noContext_of_empty hv _, fun hv => execSetPrf_of_valid hv v⟩

/-- Settles O24: the number `GET_MODE` answers is that of the mode's row in the table. -/
theorem getIvAndGetModeAnswerTheState : Obligations.GetIvAndGetModeAnswerTheState := by
  refine fun s => ⟨fun hv => ⟨noContext_of_empty hv _, noContext_of_empty hv _⟩,
    fun hv => contextRead_of_valid hv _, fun k m hmem hv hm => ?_⟩
  have hnumber : modeIdOf s.ctx.mode = k := by
    rw [hm, Construction.mem_modeTable_iff.mp hmem]
    rfl
  rw [← hnumber]
  exact contextRead_of_valid hv _

@[simp] theorem be32_length (w : Word) : (be32 w).length = 4 := rfl

/-- The four bytes of a word read back as its number (rule R65). -/
theorem beNat_be32 (w : Word) : beNat (be32 w) = w.toNat := by
  have hw : w.toNat < 2 ^ 32 := w.isLt
  simp only [be32, beNat, List.foldl_cons, List.foldl_nil, BitVec.extractLsb'_toNat, Nat.shiftRight_eq_div_pow]
  omega

/-- A size with a 32-bit form is that number (rules R209, R210). -/
theorem sizeWord_toNat {n : Nat} (h : n < 2 ^ 32) : (sizeWord n).toNat = n := by
  rw [sizeWord, if_pos h, BitVec.toNat_ofNat, Nat.mod_eq_of_lt h]

/-- Reading a size answers four bytes, which are the size where it has a 32-bit form (rules R209, R210). -/
theorem contextRead_sizeWord {s : State} (hv : s.ctx.valid = true) (n : Nat) :
    ∃ res : Bytes, contextRead (be32 (sizeWord n)) s = .next (answered s 0 res) ∧ res.length = 4 ∧
      (n < 2 ^ 32 → beNat res = n) :=
  ⟨_, contextRead_of_valid hv _, be32_length _, fun hn => (beNat_be32 _).trans (sizeWord_toNat hn)⟩

/-- Settles O25: both commands read a size. -/
theorem sizesAreAnsweredInFourBytes : Obligations.SizesAreAnsweredInFourBytes := fun s hv =>
  ⟨contextRead_sizeWord hv s.bs, contextRead_sizeWord hv s.ks⟩

end Sys2Proof.Introspection
end

section
/-! PROOFS of O19, O49, O50, O51, O52, O53: the commands of the counter generator. What one increment does to the value
is said of its integer (`valueNat_incrementValue`, `incrementValue_carry_iff`). For O53 the generator of a sequence of
invocations is `countedUp` by `invocationsGranted`, which stops growing where the generator is blocked. -/

open Sys2Proof Sys2Proof.Machine Sys2Proof.Spec Sys2Proof.CounterMode

namespace Sys2Proof.CounterCommands

/-! ## The outcomes of the commands -/

section Outcomes
variable {s : State}

/-- The first check of the four commands that need a generator, on an empty slot (rules R220, R224 to R226). -/
theorem noGenerator_of_empty (hv : s.gen.valid = false) (out : Out) :
    (if s.gen.valid = false then .next (raise .noGenerator s) else out) = .next (answered s 0x00000301 []) :=
  (if_pos hv).trans (congrArg _ (Encoding.raise_eq_answered_of_status rfl s))

theorem generatorRead_of_valid (hv : s.gen.valid = true) (result : Bytes) :
    generatorRead result s = .next (answered s 0 result) := by
  simp [generatorRead, hv, complete_eq_answered]

theorem execGenInvoke_of_blocked (hv : s.gen.valid = true) (hb : genBlocked s.gen = true) :
    execGenInvoke s = .next (answered s 0x00000103 []) := by
  have hraise : raise .counterWrapped s = answered s 0x00000103 [] := Encoding.raise_eq_answered_of_status rfl s
  simp [execGenInvoke, hv, hb, hraise]

theorem execGenInvoke_of_unblocked (hv : s.gen.valid = true) (hb : genBlocked s.gen = false) :
    execGenInvoke s = .next (answered (s.withGen (genIncrement s.gen)) 0 s.gen.buf) := by
  simp [execGenInvoke, hv, hb, complete_eq_answered]

variable {pfx sfx initial : Bytes} (e : Endianness) (aw ds : Bool)

theorem genConstruct_of_valid (hv : s.gen.valid = true) :
    genConstruct e aw ds pfx sfx initial s = .next (answered s 0x00000401 []) := by
  have hraise : raise .slotBusy s = answered s 0x00000401 [] := Encoding.raise_eq_answered_of_status rfl s
  simp [genConstruct, hv, hraise]

theorem genConstruct_of_bad (hv : s.gen.valid = false) (hbad : genParamBad pfx sfx initial = true) :
    genConstruct e aw ds pfx sfx initial s = .next (answered s 0x00001801 []) := by
  have hraise : raise .badCounterParam s = answered s 0x00001801 [] := Encoding.raise_eq_answered_of_status rfl s
  simp [genConstruct, hv, hbad, hraise]

theorem genConstruct_of_good (hv : s.gen.valid = false) (hgood : genParamBad pfx sfx initial = false) :
    genConstruct e aw ds pfx sfx initial s =
      .next (answered (s.withGen (newGenerator e aw ds pfx sfx initial)) 0 []) := by
  simp [genConstruct, hv, hgood, complete_eq_answered]

end Outcomes

theorem genParamBad_iff (pfx sfx initial : Bytes) : genParamBad pfx sfx initial = true ↔
    initial.length < 1 ∨ 65535 < initial.length ∨ 65535 < pfx.length ∨ 65535 < sfx.length := by
  simp only [genParamBad, Bool.or_eq_true, decide_eq_true_eq, or_assoc]
  exact Iff.rfl

/-- Settles O19. -/
theorem generatorCommandsNeedAGenerator : Obligations.GeneratorCommandsNeedAGenerator := by
  intro s hv
  and_intros <;> exact noGenerator_of_empty hv _

/-- Settles O49: both commands are `genConstruct`, for either byte order. -/
theorem genNewBuildsTheGenerator : Obligations.GenNewBuildsTheGenerator := by
  refine fun s aw ds pfx sfx initial => ⟨fun hv => ?busy, fun hv hbad => ?bad, fun hv hpos hn hp hq => ?good⟩
  case busy => exact ⟨genConstruct_of_valid .big aw ds hv, genConstruct_of_valid .little aw ds hv⟩
  case bad =>
    have hbad := (genParamBad_iff pfx sfx initial).mpr hbad
    exact ⟨genConstruct_of_bad .big aw ds hv hbad, genConstruct_of_bad .little aw ds hv hbad⟩
  case good =>
    have hgood := (Slots.genParamBad_eq_false_iff pfx sfx initial).mpr ⟨hpos, hn, hp, hq⟩
    exact ⟨genConstruct_of_good .big aw ds hv hgood, genConstruct_of_good .little aw ds hv hgood⟩

/-- Settles O52: a read of the flag and the write of the cleared slot. -/
theorem genGetCarryAndGenDestroyComplete : Obligations.GenGetCarryAndGenDestroyComplete := fun _ =>
  ⟨fun hv => ⟨noGenerator_of_empty hv _, noGenerator_of_empty hv _⟩,
    fun hv => ⟨generatorRead_of_valid hv _, Construction.exec_genDestroy_valid hv⟩⟩

/-! ## The integer of a value -/

theorem beNat_valueBytesMsbFirst (e : Endianness) (v : Bytes) : beNat (valueBytesMsbFirst e v) = valueNat e v := by
  cases e with
  | big => rfl
  | little => rw [valueBytesMsbFirst, beNat_eq_leNat_reverse, List.reverse_reverse, valueNat]

theorem valueBytesMsbFirst_length (e : Endianness) (v : Bytes) : (valueBytesMsbFirst e v).length = v.length := by
  cases e with
  | big => rfl
  | little => exact List.length_reverse

/-- Settles O51: the bytes answered are the value's, most significant first. -/
theorem genNextValueAnswersTheInteger : Obligations.GenNextValueAnswersTheInteger := by
  refine fun s hs => ⟨fun hv => noGenerator_of_empty hv _, fun hv => ⟨_, generatorRead_of_valid hv _, ?_,
    beNat_valueBytesMsbFirst _ _, fun hbig => ?_, fun hlittle => ?_⟩⟩
  · rw [valueBytesMsbFirst_length, genValue_length _ hs.gen.bufLength]
  · rw [hbig, valueBytesMsbFirst]
  · rw [hlittle, valueBytesMsbFirst]

theorem valueNat_lt (e : Endianness) (v : Bytes) : valueNat e v < 256 ^ v.length := by
  cases e with
  | little => exact leNat_lt v
  | big => simpa [valueNat, beNat_eq_leNat_reverse] using leNat_lt v.reverse

theorem valueNat_encodeValue (e : Endianness) (n k : Nat) : valueNat e (encodeValue e n k) = k % 256 ^ n := by
  cases e <;> simp [valueNat, encodeValue, beNat_eq_leNat_reverse, leNat_leBytes]

/-- The increment adds one to the integer, modulo the range of the value (rule R221). -/
theorem valueNat_incrementValue (e : Endianness) (v : Bytes) :
    valueNat e (incrementValue e v).1 = (valueNat e v + 1) % 256 ^ v.length := by
  rw [← valueNat_encodeValue e, ← incrementValue_encodeValue, encodeValue_valueNat]

/-- A little-endian integer is the largest of its length where every byte is `0xFF`. -/
theorem leNat_top_iff (v : Bytes) : leNat v + 1 = 256 ^ v.length ↔ ∀ b ∈ v, b = 0xFF := by
  induction v with
  | nil => simp
  | cons b v ih =>
    have hb : b.toNat < 256 := b.isLt
    have htop : b = 0xFF ↔ b.toNat = 255 := BitVec.toNat_inj.symm
    have hv := leNat_lt v
    rw [List.forall_mem_cons, ← ih, htop, leNat_cons, List.length_cons, Nat.pow_succ']
    omega

theorem valueNat_top_iff (e : Endianness) (v : Bytes) :
    valueNat e v + 1 = 256 ^ v.length ↔ ∀ b ∈ v, b = 0xFF := by
  cases e with
  | little => exact leNat_top_iff v
  | big => simpa [valueNat, beNat_eq_leNat_reverse] using leNat_top_iff v.reverse

/-- The byte loop of the increment carries out at the largest integer alone (rule R221). -/
theorem rippleCarry_carry_iff (v : Bytes) : (rippleCarry 1 v).2 = 1 ↔ leNat v + 1 = 256 ^ v.length := by
  have hsum := rippleCarry_sum 1 v
  have hnew := leNat_lt (rippleCarry 1 v).1
  have hold := leNat_lt v
  rw [rippleCarry_length] at hnew
  rcases Nat.le_one_iff_eq_zero_or_eq_one.mp (rippleCarry_carry_le 1 v le_rfl) with hc | hc <;>
    rw [hc] at hsum ⊢ <;> omega

theorem incrementValue_carry_iff (e : Endianness) (v : Bytes) :
    (incrementValue e v).2 = true ↔ valueNat e v + 1 = 256 ^ v.length := by
  cases e <;> simp [incrementValue, valueNat, beNat_eq_leNat_reverse, rippleCarry_carry_iff]

/-- Settles O50: the value and the carry written are those of `incrementValue`. -/
theorem genInvokeReturnsThenIncrements : Obligations.GenInvokeReturnsThenIncrements := by
  refine fun s hs => ⟨fun hv => noGenerator_of_empty hv _,
    fun hv hc haw => execGenInvoke_of_blocked hv (by simp [genBlocked, hc, haw]), fun hv hfree => ?_⟩
  have hb : genBlocked s.gen = false := by
    rcases hfree with hc | haw
    · simp [genBlocked, hc]
    · simp [genBlocked, haw]
  have hlen : (genValue s.gen).length = s.gen.n := genValue_length _ hs.gen.bufLength
  have hcarry := incrementValue_carry_iff s.gen.endianness (genValue s.gen)
  have hlt := valueNat_lt s.gen.endianness (genValue s.gen)
  refine ⟨_, _, execGenInvoke_of_unblocked hv hb, ?_, ?_, hcarry.trans (valueNat_top_iff _ _), ?_⟩
  · rw [incrementValue_length, hlen]
  · rw [valueNat_incrementValue, hlen]
  · rw [hlen] at hcarry hlt
    rw [hcarry]
    omega

/-! ## The sequence of invocations -/

section Sequence
variable {g : Generator}

theorem genInt_lt (hl : g.buf.length = genWidth g) : genInt g < 256 ^ g.n := by
  rw [← genValue_length g hl]
  exact valueNat_lt g.endianness (genValue g)

/-- Counted up to its wrap, a generator that may not wrap is exhausted (rule R48). -/
theorem countedUp_blocked (hl : g.buf.length = genWidth g) (haw : g.allowWraparound = false) :
    genBlocked (countedUp g (256 ^ g.n - genInt g)) = true := by
  have hlt := genInt_lt hl
  obtain ⟨k, hk⟩ : ∃ k, 256 ^ g.n - genInt g = k + 1 := Nat.exists_eq_succ_of_ne_zero (Nat.sub_pos_of_lt hlt).ne'
  have hcarry : carryAfter g (k + 1) = true := by
    have hlast : genInt g + k < 256 ^ g.n := by omega
    rw [carryAfter, incrementValue_carry_iff, valueNat_encodeValue, encodeValue_length, Nat.mod_eq_of_lt hlast]
    omega
  simp [genBlocked, countedUp, hk, hcarry, haw]

/-- How many of `m` invocations advance the generator: all of them, or those up to the wrap (rules R48, R222). -/
def invocationsGranted (g : Generator) (m : Nat) : Nat :=
  if g.allowWraparound = true then m else min m (256 ^ g.n - genInt g)

theorem invocationsGranted_eq_self {m : Nat} (h : g.allowWraparound = true ∨ genInt g + m ≤ 256 ^ g.n) :
    invocationsGranted g m = m := by
  rw [invocationsGranted]
  split_ifs with haw
  · rfl
  · have hroom := h.resolve_left haw
    omega

theorem invocationsGranted_of_wrapped {m : Nat} (haw : g.allowWraparound = false) (h : 256 ^ g.n ≤ genInt g + m) :
    invocationsGranted g m = 256 ^ g.n - genInt g := by
  rw [invocationsGranted, if_neg (by simp [haw])]
  omega

/-- The generator after `m` invocations. -/
def invoked (g : Generator) (m : Nat) : Generator := countedUp g (invocationsGranted g m)

theorem invoked_eq_countedUp {m : Nat} (h : g.allowWraparound = true ∨ genInt g + m ≤ 256 ^ g.n) :
    invoked g m = countedUp g m := congrArg (countedUp g) (invocationsGranted_eq_self h)

theorem invoked_of_wrapped {m : Nat} (haw : g.allowWraparound = false) (h : 256 ^ g.n ≤ genInt g + m) :
    invoked g m = countedUp g (256 ^ g.n - genInt g) := congrArg (countedUp g) (invocationsGranted_of_wrapped haw h)

theorem invoked_zero (hl : g.buf.length = genWidth g) : invoked g 0 = g := by
  rw [invoked_eq_countedUp (.inr (genInt_lt hl).le), countedUp_zero hl]

/-- What the invocation with `m` before it answers (rule R222). -/
def invokeResponse (g : Generator) (m : Nat) : Response :=
  if g.allowWraparound = true ∨ genInt g + m < 256 ^ g.n then { status := 0, result := counterBlock g (genInt g + m) }
  else { status := 0x00000103, result := [] }

/-- One invocation of the sequence: granted, with the generator counted up once more, or refused, with the generator
exhausted before it and after it. -/
theorem exec_genInvoke_invoked (hl : g.buf.length = genWidth g) (hv : g.valid = true) (hb : genBlocked g = false)
    {m : Nat} {s : State} (hs : s.gen = invoked g m) : ∃ u, exec .genInvoke s = .next u ∧ u.ctx = s.ctx ∧
      u.gen = invoked g (m + 1) ∧ u.dataOut = s.dataOut ++ [invokeResponse g m] := by
  have hvalid : s.gen.valid = true := by rw [hs]; exact hv
  by_cases hroom : g.allowWraparound = true ∨ genInt g + m < 256 ^ g.n
  · have hgen : s.gen = countedUp g m := hs.trans (invoked_eq_countedUp (hroom.imp_right le_of_lt))
    have hfree : genBlocked s.gen = false := hgen ▸ countedUp_unblocked hb m.lt_succ_self hroom
    refine ⟨_, execGenInvoke_of_unblocked hvalid hfree, rfl, ?_, ?_⟩
    · rw [Slots.answered_gen, State.withGen_gen, hgen, genIncrement_countedUp hl, invoked_eq_countedUp hroom]
    · rw [Slots.answered_dataOut, invokeResponse, if_pos hroom, hgen]
      rfl
  · obtain ⟨haw, hwrap⟩ := not_or.mp hroom
    rw [Bool.not_eq_true] at haw
    have hgen : s.gen = countedUp g (256 ^ g.n - genInt g) := hs.trans (invoked_of_wrapped haw (not_lt.mp hwrap))
    have hblocked : genBlocked s.gen = true := hgen ▸ countedUp_blocked hl haw
    refine ⟨_, execGenInvoke_of_blocked hvalid hblocked, rfl, ?_, ?_⟩
    · rw [Slots.answered_gen, hgen, invoked_of_wrapped haw (Nat.le_succ_of_le (not_lt.mp hwrap))]
    · rw [Slots.answered_dataOut, invokeResponse, if_neg hroom]

/-- `k` invocations from a state with `m` before it. -/
theorem invokeTimes_invoked (hl : g.buf.length = genWidth g) (hv : g.valid = true) (hb : genBlocked g = false)
    (k m : Nat) (s : State) (hs : s.gen = invoked g m) : ∃ t, invokeTimes k s = some t ∧ t.ctx = s.ctx ∧
      t.dataOut = s.dataOut ++ (List.range' m k).map (invokeResponse g) := by
  induction k generalizing m s with
  | zero => exact ⟨s, rfl, rfl, (List.append_nil _).symm⟩
  | succ k ih =>
    obtain ⟨u, hexec, hctx, hgen, hdata⟩ := exec_genInvoke_invoked hl hv hb hs
    obtain ⟨t, ht, hctx', hdata'⟩ := ih (m + 1) u hgen
    refine ⟨t, ?_, hctx'.trans hctx, ?_⟩
    · rw [invokeTimes, hexec]
      exact ht
    · rw [hdata', hdata, List.append_assoc, List.range'_succ, List.map_cons, List.singleton_append]

end Sequence

/-- Settles O53: `invokeTimes_invoked` with no invocation before it. -/
theorem invocationsCountUp : Obligations.InvocationsCountUp := by
  intro s k hs hv hb
  have hl := hs.gen.bufLength
  rw [List.range_eq_range']
  exact invokeTimes_invoked hl hv hb k 0 s (invoked_zero hl).symm

end Sys2Proof.CounterCommands
end
